-- ==== Sys2Proof/Word.lean ====
section
/-! DEFINITION. The words of the block: the unsigned bit vectors of rule R8 and the binary32 format of rule R87. -/

namespace Sys2Proof

/-- One byte: a command, a data byte, a checksum, the user register (R81, R36). -/
abbrev Byte := BitVec 8

/-- A raw measurement, format `RAW16` (R83). -/
abbrev Raw16 := BitVec 16

/-- The CRC working register, format `W24` (R84). -/
abbrev W24 := BitVec 24

/-- A binary32 number as its 32 bits: sign [31], exponent [30:23], fraction [22:0] (R87).
PRESUMED by the spec (G2): the source says only `f32` (log entry 13; unsafe in the last bit). -/
abbrev F32 := BitVec 32

end Sys2Proof
end

