-- ==== Sys2Proof/Config.lean ====
section
/-! DEFINITION. What is fixed: the constants of rule R5, the configuration record of rule R6 as plain data, and the values
the spec leaves open, as constants without a body. -/

namespace Sys2Proof

/-- What an invalid checksum does to RDT and RDH (R6, R164; D5). -/
inductive CrcPolicy where
  /-- the operation ends with `ChecksumMismatch` and no value -/
  | enforce
  /-- the value is delivered after the diagnostic -/
  | warnAndProceed
  deriving DecidableEq, Repr

/-- `NUM.round`: how the rational conversions become binary32 (R6, R139; D15). -/
inductive Rounding where
  /-- round the exact value once, to nearest, ties to even: the default -/
  | rne32
  /-- another build's arithmetic, of which nothing is known (the functions `Config.build…`) -/
  | build
  deriving DecidableEq, Repr

/-- The parameters of the reference responder, none of them in the source (R75; N9, N10, N12). -/
structure DevParams where
  urDefault : Byte
  heaterMask : Byte
  stT : BitVec 2
  stH : BitVec 2
  deriving DecidableEq, Repr

/-- The configuration record, fixed for the run (R6, R270; log entry 4). `NUM.ppres` and `NUM.dewpt` are `Config.numPpres` and
`Config.numDewpt`; `NUM.rtol` and `NUM.atol_dp` are arguments of the law in Safety. -/
structure Settings where
  crcPolicy : CrcPolicy
  legacyView : Bool
  round : Rounding
  dev : DevParams
  deriving DecidableEq, Repr

/-- The answers of one executed transaction (R59): a closed type of five values. -/
inductive BusResult where
  | ok
  | invalidArgument
  | transactionFailed
  | invalidDriverState
  | timeout
  deriving DecidableEq, Repr, Inhabited

namespace Config

/-- `DEV_ADDR` (R5, R51). -/
def devAddr : BitVec 7 := 0x40
/-- `CMD_TRIG_T_NH` (R5). -/
def cmdTrigTNh : Byte := 0xF3
/-- `CMD_TRIG_H_NH` (R5). -/
def cmdTrigHNh : Byte := 0xF5
/-- `CMD_TRIG_T_H` (R5): defined, never issued (R96). -/
def cmdTrigTH : Byte := 0xE3
/-- `CMD_TRIG_H_H` (R5): defined, never issued (R96). -/
def cmdTrigHH : Byte := 0xE5
/-- `CMD_WR_UREG` (R5). -/
def cmdWrUreg : Byte := 0xE6
/-- `CMD_RD_UREG` (R5). -/
def cmdRdUreg : Byte := 0xE7
/-- `CMD_SRST` (R5). -/
def cmdSrst : Byte := 0xFE
/-- `POLY24` (R5, R84): `x^8 + x^5 + x^4 + 1` left-aligned in 24 bits. -/
def poly24 : W24 := 0x988000
/-- `T_CONV_MS` (R5). -/
def tConvMs : Nat := 50
/-- `T_SRST_MS` (R5). -/
def tSrstMs : Nat := 15
/-- `T_TMO_MS` (R5). -/
def tTmoMs : Nat := 1000
/-- `BUS_CLK_HZ` (R5). -/
def busClkHz : Nat := 100000
/-- `STATUS_MASK` (R5). -/
def statusMask : Raw16 := 0xFFFC
/-- `RES_MASK` (R5). -/
def resMask : Byte := 0x81

/-- The defaults of R6, with the responder's general-knowledge values of R75 (PRESUMED there; log entry 12). -/
def defaults : Settings :=
  { crcPolicy := .enforce, legacyView := false, round := .rne32,
    dev := { urDefault := 0x02, heaterMask := 0x04, stT := 0b00, stH := 0b10 } }

/-- `NUM.ppres` (R141; D16): uninterpreted (log entry 17; safe). -/
opaque numPpres : F32 → F32
/-- `NUM.dewpt` (R142; D16): uninterpreted (log entry 17; safe). -/
opaque numDewpt : F32 → F32 → F32
/-- CVTT of another build (R139; D15): free, log entry 7. -/
opaque buildCvtt : Raw16 → F32
/-- C2F of another build (R139; D15): free, log entry 7. -/
opaque buildC2f : F32 → F32
/-- CMPRH of another build (R139; D15): free, log entry 7. -/
opaque buildCmprh : F32 → F32 → F32

/-- `any value` of a conversion (R137, R144, R145): the draw with this number; free, log entry 6. -/
opaque anyF32 : Nat → F32
/-- The transport's `BusResult` where State holds no answer (R58): the draw with this number; free, log entry 2. -/
opaque freeResult : Nat → BusResult
/-- The bytes that come with it (R58): draw number and place; free, log entry 2. -/
opaque freeByte : Nat → Nat → Byte
/-- The transport's `ok` or `fail` to `BusConfig` and `BusInstall` where State holds no answer (R252); free, log entry 2. -/
opaque freeAck : Nat → Bool

end Config

end Sys2Proof
end

