-- ==== Sys2Proof/Syntax.lean ====
section
/-! DEFINITION. The instructions: fifteen host operations (R90) and seven wire commands (R86), one constructor for each row
of spec/opcode_table.json; the two forms in which they arrive; and the frame items of a bus transaction (R55). -/

namespace Sys2Proof

/-- `BusId` (R6, R88; D22): an opaque name; only equality is used (DESIGN CHOICE, log entry 8; safe). -/
structure BusId where
  id : Nat
  deriving DecidableEq, Repr

/-- `Pin` (R6, R88; D22): an opaque name; only equality is used (DESIGN CHOICE, log entry 8; safe). -/
structure Pin where
  id : Nat
  deriving DecidableEq, Repr

/-- One constructor for each row of the opcode table. -/
inductive Instr where
  /-- CRCCHK raw_value, crc (R110) -/
  | crcchk (raw : Raw16) (crc : Byte)
  /-- CVTT raw (R131) -/
  | cvtt (raw : Raw16)
  /-- CVTH raw (R132) -/
  | cvth (raw : Raw16)
  /-- C2F c (R133) -/
  | c2f (c : F32)
  /-- CMPRH temp_c, rh_percent (R134) -/
  | cmprh (tempC rhPercent : F32)
  /-- PPRES temp_c (R135) -/
  | ppres (tempC : F32)
  /-- DEWPT temp_c, rh_percent (R136) -/
  | dewpt (tempC rhPercent : F32)
  /-- RDT (R166) -/
  | rdt
  /-- RDH (R167) -/
  | rdh
  /-- RDUR (R180) -/
  | rdur
  /-- WRUR value (R183) -/
  | wrur (value : Byte)
  /-- GETRES (R195) -/
  | getres
  /-- SETRES resolution (R197) -/
  | setres (resolution : Byte)
  /-- INIT bus_id, data_pin, clock_pin, data_pullup, clock_pullup (R210, R88) -/
  | init (busId : BusId) (dataPin clockPin : Pin) (dataPullup clockPullup : Bool)
  /-- SRST (R217) -/
  | srst
  /-- W_TRIG_T_NH, byte 0xF3 (R86) -/
  | wTrigTNh
  /-- W_TRIG_H_NH, byte 0xF5 (R86) -/
  | wTrigHNh
  /-- W_TRIG_T_H, byte 0xE3 (R86, R96) -/
  | wTrigTH
  /-- W_TRIG_H_H, byte 0xE5 (R86, R96) -/
  | wTrigHH
  /-- W_WR_UREG, byte 0xE6 and the new register byte (R81, R85, R86) -/
  | wWrUreg (value : Byte)
  /-- W_RD_UREG, byte 0xE7 (R86) -/
  | wRdUreg
  /-- W_SRST, byte 0xFE (R86) -/
  | wSrst
  deriving DecidableEq, Repr

/-- The typed operand ports of a host request (R80): an operation reads the ports of its own operands and no other
(DESIGN CHOICE, log entry 10; safe). -/
structure Ports where
  u16 : Raw16
  u8 : Byte
  f32a : F32
  f32b : F32
  busId : BusId
  dataPin : Pin
  clockPin : Pin
  dataPullup : Bool
  clockPullup : Bool
  deriving DecidableEq, Repr

/-- Every port at zero: the operands an operation does not have, and those the opcode table gives no bits. -/
def Ports.zero : Ports :=
  { u16 := 0, u8 := 0, f32a := 0, f32b := 0, busId := { id := 0 }, dataPin := { id := 0 }, clockPin := { id := 0 },
    dataPullup := false, clockPullup := false }

/-- A host request, format `HOP` (R80): a four-bit selector and the operand ports. -/
structure HostRequest where
  op : BitVec 4
  ports : Ports
  deriving DecidableEq, Repr

/-- What the decoder reads: a request on the host interface, or the data bytes of a write transaction addressed to the
device (format `WCMD`, R81). -/
inductive Frame where
  | host (r : HostRequest)
  | wire (bytes : List Byte)
  deriving DecidableEq, Repr

/-- Direction of an address item (R55). -/
inductive Dir where
  | write
  | read
  deriving DecidableEq, Repr

/-- How a read byte is answered (R55). -/
inductive Ack where
  | ack
  | nack
  deriving DecidableEq, Repr

/-- The items of a transaction (R55). -/
inductive FrameItem where
  | start
  | addr (a7 : BitVec 7) (dir : Dir)
  | wbyte (b : Byte)
  | rbyte (a : Ack)
  | stop
  deriving DecidableEq, Repr

/-- A transaction: a finite list of frame items (R55). -/
abbrev Txn := List FrameItem

end Sys2Proof
end

