-- ==== Sys2Proof/WellFormed.lean ====
section
/-! DEFINITION. What makes a request, a wire frame, a transaction and a configuration well-formed. The type `Instr` admits
no ill-formed instruction (every operand has exactly the width of its type, R80), so the checks stand on what instructions
are read from and on what the block sends. -/

namespace Sys2Proof

/-- The seven command bytes of the map (R52, R86). -/
def commandBytes : List Byte :=
  [Config.cmdTrigTNh, Config.cmdTrigHNh, Config.cmdTrigTH, Config.cmdTrigHH, Config.cmdWrUreg, Config.cmdRdUreg,
   Config.cmdSrst]

/-- Selector 15 is no operation (R98). -/
def HostRequest.wf (r : HostRequest) : Bool := r.op != 15

/-- A wire frame is one command byte of the map, and `0xE6` alone is followed by a second byte (R81, R97). -/
def wireWf : List Byte → Bool
  | [c] => commandBytes.contains c && c != Config.cmdWrUreg
  | [c, _] => c == Config.cmdWrUreg
  | _ => false

/-- Both forms in one. -/
def Frame.wf : Frame → Bool
  | .host r => r.wf
  | .wire bs => wireWf bs

/-- The four transaction shapes of R56, each to the device address 0x40 (R51): the probe, writes of one and two bytes,
reads of one and three bytes answered with ACK but for the last. -/
def Txn.wf : Txn → Bool
  | [.start, .addr a .write, .stop] => a == Config.devAddr
  | [.start, .addr a .write, .wbyte _, .stop] => a == Config.devAddr
  | [.start, .addr a .write, .wbyte _, .wbyte _, .stop] => a == Config.devAddr
  | [.start, .addr a .read, .rbyte .nack, .stop] => a == Config.devAddr
  | [.start, .addr a .read, .rbyte .ack, .rbyte .ack, .rbyte .nack, .stop] => a == Config.devAddr
  | _ => false

/-- The heater mask has exactly one bit set, inside 0x7E (R75). -/
def DevParams.wf (p : DevParams) : Bool :=
  [0x02, 0x04, 0x08, 0x10, 0x20, 0x40].contains p.heaterMask

end Sys2Proof
end

