-- ==== Sys2Proof/Decode.lean ====
section
/-! DEFINITION. The decoder, total on every request and every byte string, rejecting by name (R90, R86, R98, R97); the
encoder; and the layout of an opcode-table word. -/

namespace Sys2Proof

/-- Why a frame is no instruction. -/
inductive DecodeError where
  /-- selector 15 (R98) -/
  | reservedSelector
  /-- a command byte outside the seven of the map (R97) -/
  | undefinedCommand
  /-- a frame without a byte, a command with a byte too many, or `0xE6` without its data byte (R81) -/
  | malformedFrame
  deriving DecidableEq, Repr

/-- The host operation map (R90): the selector names the operation, which takes its operands from its ports. -/
def decodeHost (r : HostRequest) : Except DecodeError Instr :=
  match r.op.toNat with
  | 0 => .ok (.crcchk r.ports.u16 r.ports.u8)
  | 1 => .ok (.cvtt r.ports.u16)
  | 2 => .ok (.cvth r.ports.u16)
  | 3 => .ok (.c2f r.ports.f32a)
  | 4 => .ok (.cmprh r.ports.f32a r.ports.f32b)
  | 5 => .ok (.ppres r.ports.f32a)
  | 6 => .ok (.dewpt r.ports.f32a r.ports.f32b)
  | 7 => .ok .rdt
  | 8 => .ok .rdh
  | 9 => .ok .rdur
  | 10 => .ok (.wrur r.ports.u8)
  | 11 => .ok .getres
  | 12 => .ok (.setres r.ports.u8)
  | 13 => .ok (.init r.ports.busId r.ports.dataPin r.ports.clockPin r.ports.dataPullup r.ports.clockPullup)
  | 14 => .ok .srst
  | _ => .error .reservedSelector

/-- The wire command map (R86): the first byte is the whole opcode, and `0xE6` takes the byte after it (R81, R85). -/
def decodeWire (bytes : List Byte) : Except DecodeError Instr :=
  match bytes with
  | [] => .error .malformedFrame
  | c :: rest =>
    if c = 0xF3 then (if rest = [] then .ok .wTrigTNh else .error .malformedFrame)
    else if c = 0xF5 then (if rest = [] then .ok .wTrigHNh else .error .malformedFrame)
    else if c = 0xE3 then (if rest = [] then .ok .wTrigTH else .error .malformedFrame)
    else if c = 0xE5 then (if rest = [] then .ok .wTrigHH else .error .malformedFrame)
    else if c = 0xE6 then (match rest with
      | [v] => .ok (.wWrUreg v)
      | _ => .error .malformedFrame)
    else if c = 0xE7 then (if rest = [] then .ok .wRdUreg else .error .malformedFrame)
    else if c = 0xFE then (if rest = [] then .ok .wSrst else .error .malformedFrame)
    else .error .undefinedCommand

/-- One decoder for both forms. -/
def decode (f : Frame) : Except DecodeError Instr :=
  match f with
  | .host r => decodeHost r
  | .wire bs => decodeWire bs

/-- A host request with this selector and these operands; ports the operation does not have are zero. -/
def hostFrame (op : BitVec 4) (p : Ports) : Frame := .host { op := op, ports := p }

/-- The frame of an instruction (R86, R90). -/
def encode (i : Instr) : Frame :=
  match i with
  | .crcchk raw crc => hostFrame 0 { Ports.zero with u16 := raw, u8 := crc }
  | .cvtt raw => hostFrame 1 { Ports.zero with u16 := raw }
  | .cvth raw => hostFrame 2 { Ports.zero with u16 := raw }
  | .c2f c => hostFrame 3 { Ports.zero with f32a := c }
  | .cmprh t h => hostFrame 4 { Ports.zero with f32a := t, f32b := h }
  | .ppres t => hostFrame 5 { Ports.zero with f32a := t }
  | .dewpt t h => hostFrame 6 { Ports.zero with f32a := t, f32b := h }
  | .rdt => hostFrame 7 Ports.zero
  | .rdh => hostFrame 8 Ports.zero
  | .rdur => hostFrame 9 Ports.zero
  | .wrur v => hostFrame 10 { Ports.zero with u8 := v }
  | .getres => hostFrame 11 Ports.zero
  | .setres r => hostFrame 12 { Ports.zero with u8 := r }
  | .init b dp cp dpu cpu =>
    hostFrame 13 { Ports.zero with busId := b, dataPin := dp, clockPin := cp, dataPullup := dpu, clockPullup := cpu }
  | .srst => hostFrame 14 Ports.zero
  | .wTrigTNh => .wire [0xF3]
  | .wTrigHNh => .wire [0xF5]
  | .wTrigTH => .wire [0xE3]
  | .wTrigHH => .wire [0xE5]
  | .wWrUreg v => .wire [0xE6, v]
  | .wRdUreg => .wire [0xE7]
  | .wSrst => .wire [0xFE]

/-- The operations of the host's public surface (R90): all but the wire commands. -/
def Instr.isHost (i : Instr) : Bool :=
  match encode i with
  | .host _ => true
  | .wire _ => false

/-- The frame an opcode-table word stands for. Up to 4 bits, or a value below 16, it is a host selector with every operand
port zero; otherwise its low byte is a wire command, followed by the next byte (zero above `nbits`) where that command is
`0xE6`. Selectors and command bytes do not overlap: every command byte is above 15
(DESIGN CHOICE, log entry 10; safe). -/
def frameOfTableWord (nbits w : Nat) : Frame :=
  let v := w % 2 ^ nbits
  if v < 16 then hostFrame (BitVec.ofNat 4 v) Ports.zero
  else if BitVec.ofNat 8 v = Config.cmdWrUreg then .wire [BitVec.ofNat 8 v, BitVec.ofNat 8 (v / 256)]
  else .wire [BitVec.ofNat 8 v]

/-- What the decoder reads from an opcode-table word. -/
def decodeTableWord (nbits w : Nat) : Option Instr :=
  match decode (frameOfTableWord nbits w) with
  | .ok i => some i
  | .error _ => none

end Sys2Proof
end

