-- ==== Sys2Proof/Machine/State.lean ====
section
/-! DEFINITION. The state of the machine as plain data, the reasons it can stop, and its state at block reset (R270). -/

namespace Sys2Proof.Machine

/-- The outcome of an operation (R230): nine values. -/
inductive Status where
  | ok
  | configurationError
  | installError
  | notFoundError
  | invalidArgumentError
  | transactionFailedError
  | invalidDriverStateError
  | timeoutError
  | checksumMismatch
  deriving DecidableEq, Repr

/-- A result value of one of the types of R90. -/
inductive Value where
  | bool (b : Bool)
  | u16 (v : Raw16)
  | u8 (v : Byte)
  | f32 (v : F32)
  deriving DecidableEq, Repr

/-- `PH` (R31): `IDLE`, or `Run(op, k)` with the operation in progress, its operands included (log entry 5), and the number
of external calls it has completed. -/
inductive Phase where
  | idle
  | run (op : Instr) (k : Nat)
  deriving DecidableEq, Repr

/-- The kind of a diagnostic (R256). -/
inductive DiagKind where
  | crcMismatch
  deriving DecidableEq, Repr

/-- One external call with its arguments and its answer: an element of the trace (R10, R71, R252). -/
inductive Event where
  /-- `BusConfig`, with the constants master mode and clock speed it always passes (R212, R252) -/
  | busConfig (busId : BusId) (dataPin clockPin : Pin) (dataPullup clockPullup master : Bool) (clockHz : Nat) (ok : Bool)
  /-- `BusInstall` (R213) -/
  | busInstall (busId : BusId) (ok : Bool)
  /-- `BusExec` (R58); the bytes are those read, none where the result is no `Ok` -/
  | busExec (bh : BusId) (txn : Txn) (tmoMs : Nat) (res : BusResult) (bytes : List Byte)
  /-- `Delay` (R250) -/
  | delay (ms : Nat)
  /-- `Diag` (R256) -/
  | diag (kind : DiagKind) (raw : Raw16) (cks : Byte)
  deriving DecidableEq, Repr

/-- An answer of the transport that is already decided (R58, R252). -/
inductive Answer where
  /-- the `ok` or `fail` of `BusConfig` and `BusInstall` -/
  | ack (ok : Bool)
  /-- the result and the bytes of `BusExec` -/
  | exec (res : BusResult) (bytes : List Byte)
  /-- an outcome outside the five results: refused (R59; D10) -/
  | alien (code : Nat)
  deriving DecidableEq, Repr

/-- Who answers the block's calls: the unconstrained transport (R58), or the reference responder `DEV` (R75). -/
inductive Link where
  | oracle
  | responder
  deriving DecidableEq, Repr

/-- Which measurement a trigger asked for (R37, R75). -/
inductive Pending where
  | none
  | temperature
  | humidity
  deriving DecidableEq, Repr

/-- The sensor device as the reference responder holds it (R36, R37, R75). -/
structure Dev where
  present : Bool
  installed : Bool
  ur : Byte
  pend : Pending
  selUr : Bool
  elapsedMs : Nat
  rebooting : Bool
  measT : Raw16
  measH : Raw16
  deriving DecidableEq, Repr

/-- Why the machine stops with a fault (R244). -/
inductive Fault where
  /-- A `BusExec` while `BH` is unwritten (R23; U3; D8): raised by the shared `busExec`, before the call. Safe: the spec
  gives this fault. -/
  | unwrittenHandle
  /-- A read of a datapath register that holds no value (R21; U4): raised by the measurement and resolution calls in states
  no run reaches. Safe: the spec gives this fault. -/
  | deadRegister
  /-- `PH` is Run(op, k) with k at or past the number of calls of `op`: raised by the call lists. R31 allows k up to 5, so
  Run(op, n) after the last of n calls among them; the model ends an operation in its last call's own step and never rests
  there, so no run reaches this fault (DESIGN CHOICE, log entry 23). Safe. -/
  | phaseOutsideCallList
  deriving DecidableEq, Repr

/-- Why a request or an answer has no step (R244). -/
inductive Refusal where
  /-- An instruction whose arm has no meaning yet. Safe. -/
  | notModelled (mnemonic : String)
  /-- A request for another operation while one is running (R254; U1; D9): raised by every operation. Safe. -/
  | busy
  /-- Selector 15 (R98; U5; D2): raised by the fetch. Safe. -/
  | reservedSelector
  /-- A wire frame whose command byte is outside the map (R97; U10): raised by the fetch. Safe. -/
  | undefinedCommand
  /-- A wire frame of no format (R81): raised by the fetch. Safe. -/
  | malformedFrame
  /-- A transport answer of the wrong type, outside the five results, or with the wrong number of bytes (R58, R59; U11;
  D10): raised by the shared external calls. Safe. -/
  | illTypedAnswer
  /-- A hold-mode trigger, for whose reception "a model has no rule" (R96; U9): raised by W_TRIG_T_H and W_TRIG_H_H. Safe. -/
  | holdModeNotCovered
  deriving DecidableEq, Repr

/-- The state. Registers are named as in 10_state.md; where the spec says that a register can hold no value (R21, R270), it
is an `Option` and `none` says so (DEDUCED, log entry 1; safe). The fields from `cfg` on down after the registers are described in INVENTORY.md. -/
structure State where
  /-- the Bus Handle `BH` (R22) -/
  bh : Option BusId
  /-- the sequencer phase `PH` (R31) -/
  ph : Phase
  /-- `STATUS` (R30) -/
  status : Option Status
  /-- `VAL` (R30) -/
  val : Option Value
  /-- `CMD` (R24) -/
  cmd : Option Byte
  /-- `MSB` (R25) -/
  msb : Option Byte
  /-- `LSB` (R25) -/
  lsb : Option Byte
  /-- `CKS` (R25) -/
  cks : Option Byte
  /-- `RAW` (R26) -/
  raw : Option Raw16
  /-- `W` (R27) -/
  w : Option W24
  /-- `IT`, 0 to 16 (R27) -/
  it : Option (Fin 17)
  /-- `CRC_OK` (R34) -/
  crcOk : Option Bool
  /-- `REGV` (R28) -/
  regv : Option Byte
  /-- `RESV` (R29) -/
  resv : Option Byte
  /-- `MERGE` (R29) -/
  merge : Option Byte
  /-- `legacy_raw` (R170; log entry 9) -/
  legacyRaw : Option Raw16
  /-- `legacy_eng` (R170; log entry 9) -/
  legacyEng : Option F32
  /-- the configuration (R6), which no step changes -/
  cfg : Settings
  /-- the external calls so far, oldest first (R71) -/
  trace : List Event
  /-- requests the host has still to present, next one first (R13) -/
  host : List HostRequest
  /-- write frames of other bus masters not yet taken by the device (R73, R254) -/
  wire : List (List Byte)
  /-- who answers the block's calls (log entry 2) -/
  link : Link
  /-- transport answers already decided, next one first (R13) -/
  answers : List Answer
  /-- how many free values have been drawn -/
  seq : Nat
  /-- the device behind the bus (R75) -/
  dev : Dev
  deriving DecidableEq, Repr

/-- The device at the start: R75 and R273 give `installed`; the rest is named in log entry 12. -/
def Dev.start : Dev :=
  { present := true, installed := false, ur := 0x02, pend := .none, selUr := false, elapsedMs := 0, rebooting := false,
    measT := 0, measH := 0 }

/-- The block at reset (R270): the handle unwritten, the sequencer idle, every other register without a value, the
configuration at R6's defaults; nothing presented, nothing on the bus, nothing called yet. -/
def State.reset : State :=
  { bh := none, ph := .idle, status := none, val := none, cmd := none, msb := none, lsb := none, cks := none, raw := none,
    w := none, it := none, crcOk := none, regv := none, resv := none, merge := none, legacyRaw := none, legacyEng := none,
    cfg := Config.defaults, trace := [], host := [], wire := [], link := .oracle, answers := [], seq := 0,
    dev := Dev.start }

/-- What one step answers. -/
abbrev Out := Host.Outcome State Fault Refusal

end Sys2Proof.Machine
end

