-- ==== Sys2Proof/Machine/Bus.lean ====
section
/-! DEFINITION. The transactions the block builds (R55 to R57, R60, R61). -/

namespace Sys2Proof.Machine

/-- The presence probe (R56): addressed for write with no payload. -/
def tProbe : Txn := [.start, .addr Config.devAddr .write, .stop]

/-- A write of the given bytes (R56, R60). -/
def tWrite (bs : List Byte) : Txn := [.start, .addr Config.devAddr .write] ++ bs.map .wbyte ++ [.stop]

/-- A write of one command byte (R56). -/
def tCmd (c : Byte) : Txn := tWrite [c]

/-- A read of `n` bytes (R56, R61): ACK on every byte but the last, NACK on the last.
PRESUMED by the spec (G3, D18): the source says only "standard ACK/NACK framing" (log entry 14; unsafe). -/
def tRead (n : Nat) : Txn :=
  [.start, .addr Config.devAddr .read] ++ List.replicate (n - 1) (.rbyte .ack) ++ [.rbyte .nack, .stop]

/-- How many bytes a transaction reads: one for each `RBYTE` item (R58). -/
def rbyteCount (t : Txn) : Nat :=
  match t with
  | [] => 0
  | .rbyte _ :: rest => rbyteCount rest + 1
  | _ :: rest => rbyteCount rest

/-- The data bytes up to `STOP` of what follows the address item of a write. -/
def writeData (t : Txn) : Option (List Byte) :=
  match t with
  | [.stop] => some []
  | .wbyte b :: rest => (writeData rest).map (b :: ·)
  | _ => none

/-- The data bytes of a write transaction to the device; none for any other transaction. -/
def writeBytes (t : Txn) : Option (List Byte) :=
  match t with
  | .start :: .addr a .write :: rest => if a = Config.devAddr then writeData rest else none
  | _ => none

/-- The address byte on the wire (R57): the seven bits above, the direction in bit 0. PRESUMED by the spec (G4, D19; log entry 14); the
machine works on frame items and does not use it. -/
def addrByte (a : BitVec 7) (d : Dir) : Byte :=
  (a.setWidth 8 <<< 1) ||| (match d with | .write => 0 | .read => 1)

end Sys2Proof.Machine
end

