-- ==== Sys2Proof/Machine/Flags.lean ====
section
/-! DEFINITION. The one flag, `CRC_OK`, and the division that computes it (R34, R110 to R114). -/

namespace Sys2Proof.Machine

/-- The load of the working register: raw value in bits 23:8, checksum in bits 7:0 (R92, R84). -/
def crcLoad (raw : Raw16) (crc : Byte) : W24 := (raw.setWidth 24 <<< 8) ||| crc.setWidth 24

/-- Iteration `i` (R111): where bit 23 - i is set, the generator shifted right by `i` is XORed in. -/
def crcIter (w : W24) (i : Nat) : W24 := if w.getLsbD (23 - i) then w ^^^ (Config.poly24 >>> i) else w

/-- The sixteen iterations, `i` from 0 to 15 (R111). -/
def crcDivide (w : W24) : W24 := (List.range 16).foldl crcIter w

/-- `is_crc_valid` (R110, R112): the final working register is zero over all 24 bits. -/
def isCrcValid (raw : Raw16) (crc : Byte) : Bool := crcDivide (crcLoad raw crc) == 0

/-- `crc8` (R114): the low byte left by the division with a zero checksum. -/
def crc8 (v : Raw16) : Byte := (crcDivide (crcLoad v 0)).setWidth 8

/-- One bit of the byte-serial form (R114). -/
def crcSerialBit (r : Byte) : Byte := if r.msb then (r <<< 1) ^^^ 0x31 else r <<< 1

/-- One byte of the byte-serial form (R114): XOR it in, then eight bits. -/
def crcSerialByte (r b : Byte) : Byte := (List.range 8).foldl (fun r _ => crcSerialBit r) (r ^^^ b)

/-- The byte-serial form of `crc8` (R114), which the machine does not use. -/
def crc8Serial (v : Raw16) : Byte := crcSerialByte (crcSerialByte 0 ((v >>> 8).setWidth 8)) (v.setWidth 8)

/-- The validator on the registers: `W` ends as the remainder, `IT` as 16, and `CRC_OK` holds the verdict (R110, R27,
R34). All in one step (D30; DESIGN CHOICE, log entry 18; safe). -/
def crcEval (raw : Raw16) (crc : Byte) (s : State) : State :=
  { s with w := some (crcDivide (crcLoad raw crc)), it := some 16, crcOk := some (isCrcValid raw crc) }

end Sys2Proof.Machine
end

