-- ==== Sys2Proof/Machine/Device.lean ====
section
/-! DEFINITION. The device: what each wire command does to it (R68, R86, R271) and the reference responder `DEV` (R75, R76). -/

namespace Sys2Proof.Machine

/-- A no-hold trigger (R76): a conversion starts, and the result window belongs to it (R37, R54). -/
def devTrigger (q : Pending) (d : Dev) : Dev := { d with pend := q, elapsedMs := 0, selUr := false }

/-- Read user register (R76, R53): the next one-byte read returns it. -/
def devSelectUr (d : Dev) : Dev := { d with selUr := true }

/-- Write user register (R76, R53): all eight bits are replaced. -/
def devWriteUr (v : Byte) (d : Dev) : Dev := { d with ur := v }

/-- Soft reset (R76, R271): the user register goes to its default except the heater bit, a pending result is dropped, and
the reboot window begins. -/
def devSoftReset (p : DevParams) (d : Dev) : Dev :=
  { d with ur := (p.urDefault &&& ~~~p.heaterMask) ||| (d.ur &&& p.heaterMask), pend := .none, selUr := false,
           rebooting := true, elapsedMs := 0 }

/-- Time passes (R76): the reboot window ends once 15 ms have gone by. -/
def devDelay (ms : Nat) (d : Dev) : Dev :=
  { d with elapsedMs := d.elapsedMs + ms,
           rebooting := d.rebooting && decide (d.elapsedMs + ms < Config.tSrstMs) }

/-- The raw value of the pending conversion, with its status bits (R76); none where nothing is pending. -/
def devMeasured (p : DevParams) (d : Dev) : Option Raw16 :=
  match d.pend with
  | .none => none
  | .temperature => some ((d.measT &&& Config.statusMask) ||| p.stT.setWidth 16)
  | .humidity => some ((d.measH &&& Config.statusMask) ||| p.stH.setWidth 16)

/-- The three bytes of a measurement response (R82, R76). -/
def measFrame (m : Raw16) : List Byte := [(m >>> 8).setWidth 8, m.setWidth 8, crc8 m]

/-- The effect of a write transaction's data bytes on a device that acknowledges them; none where R76 answers
`TransactionFailed`. -/
def devWritten (p : DevParams) (bs : List Byte) (d : Dev) : Option Dev :=
  match decodeWire bs with
  | .ok .wTrigTNh => some (devTrigger .temperature d)
  | .ok .wTrigHNh => some (devTrigger .humidity d)
  | .ok .wRdUreg => some (devSelectUr d)
  | .ok (.wWrUreg v) => some (devWriteUr v d)
  | .ok .wSrst => some (devSoftReset p d)
  | _ => none

/-- `DEV`'s answer to a transaction, in the order R76 tests. -/
def devRespond (p : DevParams) (t : Txn) (d : Dev) : BusResult × List Byte × Dev :=
  if d.installed = false then (.invalidDriverState, [], d)
  else if d.present = false ∨ d.rebooting = true then (.transactionFailed, [], d)
  else if t = tProbe then (.ok, [], d)
  else if t = tRead 3 then
    match devMeasured p d with
    | some m => if Config.tConvMs ≤ d.elapsedMs then (.ok, measFrame m, { d with pend := .none }) else (.transactionFailed, [], d)
    | none => (.transactionFailed, [], d)
  else if t = tRead 1 then
    if d.selUr then (.ok, [d.ur], d) else (.transactionFailed, [], d)
  else
    match (writeBytes t).bind fun bs => devWritten p bs d with
    | some d' => (.ok, [], d')
    | none => (.transactionFailed, [], d)

/-- `DEV`'s answer to `BusInstall` (R76): it fails where the driver is installed already. -/
def devInstall (d : Dev) : Bool × Dev := (!d.installed, { d with installed := true })

end Sys2Proof.Machine
end

