-- ==== Sys2Proof/Machine/Operands.lean ====
section
/-! DEFINITION. Operand assembly (R91 to R95), the codes of the statuses (R230), and the real value and rounding of binary32
(R11, R87, R139). -/

namespace Sys2Proof.Machine

/-- Raw assembly (R91, R62): most significant byte first. -/
def assembleRaw (msb lsb : Byte) : Raw16 := (msb.setWidth 16 <<< 8) ||| lsb.setWidth 16

/-- Status masking (R93): bits 1:0 of the value are forced to zero. -/
def maskStatus (raw : Raw16) : Raw16 := raw &&& Config.statusMask

/-- Resolution field (R94): bits 7 and 0, at their places. -/
def resBits (v : Byte) : Byte := v &&& Config.resMask

/-- Resolution merge (R95): bits 7 and 0 of the operand, the other six of the register. -/
def mergeRes (regv resv : Byte) : Byte := (regv &&& ~~~Config.resMask) ||| (resv &&& Config.resMask)

/-- The codes of the statuses (R230; D3: the spec's own numbers; log entry 21; safe). -/
def statusCode (st : Status) : Nat :=
  match st with
  | .ok => 0
  | .configurationError => 1
  | .installError => 2
  | .notFoundError => 3
  | .invalidArgumentError => 4
  | .transactionFailedError => 5
  | .invalidDriverStateError => 6
  | .timeoutError => 7
  | .checksumMismatch => 8

/-- `status_of` (R232), one to one on the four failures; `Ok` is no failure and keeps its name. -/
def statusOf (r : BusResult) : Status :=
  match r with
  | .ok => .ok
  | .invalidArgument => .invalidArgumentError
  | .transactionFailed => .transactionFailedError
  | .invalidDriverState => .invalidDriverStateError
  | .timeout => .timeoutError

/-- The exponent field of a binary32 (R87). -/
def f32Exp (f : F32) : Nat := (f >>> 23).toNat % 256

/-- The fraction field of a binary32 (R87). -/
def f32Frac (f : F32) : Nat := f.toNat % 2 ^ 23

/-- Neither an infinity nor a NaN (R87). -/
def f32Finite (f : F32) : Bool := f32Exp f != 255

/-- The size of a finite binary32 in units of 2 ^ -150: the significand, with its hidden bit where the number is normal,
scaled by the exponent (a subnormal has the scale of exponent 1). -/
def f32Units (f : F32) : Nat := (f32Frac f + (if f32Exp f = 0 then 0 else 2 ^ 23)) * 2 ^ max (f32Exp f) 1

/-- `val` (R11): the exact value of a finite binary32. R11 gives a NaN or an infinity no value; here it is the number that the
same formula reads from its bits, 2 ^ 128 or more in size (DESIGN CHOICE, log entry 22; safe: no meaning reads it, every
conversion asks `f32Finite` first). -/
def f32Val (f : F32) : Rat := if f.msb then -((f32Units f : Rat) / 2 ^ 150) else (f32Units f : Rat) / 2 ^ 150

/-- `rne32` (R11, R139): the binary32 nearest `q`, ties to the even significand, overflowing to an infinity; an exact zero
is +0.0 (PRESUMED, log entry 13). The size of `q` is taken in units of 2 ^ -149; `s` is how many low places fall away so that at most 24 remain, and
a significand rounded up to 2 ^ 24 carries into the exponent by the addition. -/
def rne32 (q : Rat) : F32 :=
  let n := q.num.natAbs * 2 ^ 149
  let s := Nat.log2 (n / q.den) - 23
  let d := q.den * 2 ^ s
  let m := n / d
  let r := n % d
  let m' := if d < 2 * r ∨ (2 * r = d ∧ m % 2 = 1) then m + 1 else m
  let mag := min (s * 2 ^ 23 + m') 0x7F800000
  BitVec.ofNat 32 (if q < 0 then 2 ^ 31 + mag else mag)

end Sys2Proof.Machine
end

