-- ==== Sys2Proof/Machine/Ops.lean ====
section
/-! DEFINITION. The operations every meaning is written over: the external calls (R10), ending an operation (R240), the gates
(R232), and the advance of `PH` (R32). -/

namespace Sys2Proof.Machine

/-- `BUSY` (R35). -/
def busy (s : State) : Bool := s.ph != .idle

/-- Append a call to the trace (R71). -/
def record (e : Event) (s : State) : State := { s with trace := s.trace ++ [e] }

/-- The datapath registers hold no value outside an operation (R20, R21, R241). -/
def killDatapath (s : State) : State :=
  { s with cmd := none, msb := none, lsb := none, cks := none, raw := none, w := none, it := none, regv := none,
           resv := none, merge := none }

/-- The end of an operation (R240, R14): `STATUS` and `VAL` written, `PH` idle, nothing else called. Until
then both registers keep what the operation before left (DEDUCED, log entry 11; safe). -/
def finish (st : Status) (v : Option Value) (s : State) : State :=
  { killDatapath s with status := some st, val := v, ph := .idle }

/-- `raise S` (R240): the operation ends at once with a status and no value. This is all the block has in the place of
taking an exception: nothing is saved and nothing is vectored. -/
def raise (st : Status) (s : State) : Out := .next (finish st none s)

/-- `return (Ok, v)`, or `return (Ok)` for an operation without a result (R240). -/
def returnOk (v : Option Value) (s : State) : Out := .next (finish .ok v s)

/-- `return (Ok, any value)` (R137, R144, R145): a binary32 drawn under no law. -/
def returnAny (s : State) : Out := returnOk (some (.f32 (Config.anyF32 s.seq))) { s with seq := s.seq + 1 }

/-- The call just made has passed its gate: `Run(op, k) -> Run(op, k+1)` (R32 b). -/
def advance (s : State) : State :=
  match s.ph with
  | .run i k => { s with ph := .run i (k + 1) }
  | .idle => s

/-- The gate after a `BusExec` (R232, R235): on `Ok` the operation goes on, on a failure it ends with `status_of`. The end
is an argument, since RDT and RDH also set the legacy outputs. -/
def gate (r : BusResult) (onFail : Status → State → Out) (s : State) (goOn : State → Out) : Out :=
  if r = .ok then goOn s else onFail (statusOf r) s

/-- Read a datapath register that may hold no value (R21; U4). -/
def readReg {α : Type} (r : Option α) (k : α → Out) : Out :=
  match r with
  | some v => k v
  | none => .fault .deadRegister

/-- The transport's `ok` or `fail` (R252): the next decided answer, a free one where none is decided, or the responder's. -/
def askAck (ofDev : Dev → Bool × Dev) (s : State) : Except Refusal (Bool × State) :=
  match s.link with
  | .oracle =>
    match s.answers with
    | [] => .ok (Config.freeAck s.seq, { s with seq := s.seq + 1 })
    | .ack b :: rest => .ok (b, { s with answers := rest })
    | _ :: _ => .error .illTypedAnswer
  | .responder => .ok ((ofDev s.dev).1, { s with dev := (ofDev s.dev).2 })

/-- The transport's answer to a transaction (R58): one byte for each `RBYTE` item where the result is `Ok`, and no byte
where it is not ("bytes is meaningless and no rule reads it"). -/
def askExec (t : Txn) (s : State) : Except Refusal (BusResult × List Byte × State) :=
  match s.link with
  | .oracle =>
    match s.answers with
    | [] =>
      let r := Config.freeResult s.seq
      .ok (r, if r = .ok then (List.range (rbyteCount t)).map (Config.freeByte s.seq) else [], { s with seq := s.seq + 1 })
    | .exec r bs :: rest =>
      if r = .ok then
        if bs.length = rbyteCount t then .ok (r, bs, { s with answers := rest }) else .error .illTypedAnswer
      else .ok (r, [], { s with answers := rest })
    | _ :: _ => .error .illTypedAnswer
  | .responder =>
    let a := devRespond s.cfg.dev t s.dev
    .ok (a.1, a.2.1, { s with dev := a.2.2 })

/-- `BusConfig` (R10, R212, R252): always master mode and 100 kHz; pins and pull-ups as given. -/
def busConfig (b : BusId) (dp cp : Pin) (dpu cpu : Bool) (s : State) (k : Bool → State → Out) : Out :=
  match askAck (fun d => (true, d)) s with
  | .ok a => k a.1 (record (.busConfig b dp cp dpu cpu true Config.busClkHz a.1) a.2)
  | .error r => .refused r

/-- `BusInstall` (R10, R213, R252). -/
def busInstall (b : BusId) (s : State) (k : Bool → State → Out) : Out :=
  match askAck devInstall s with
  | .ok a => k a.1 (record (.busInstall b a.1) a.2)
  | .error r => .refused r

/-- `BusExec(BH, txn, 1000)` (R58): a fault before the call where `BH` is unwritten (R23). -/
def busExec (t : Txn) (s : State) (k : BusResult → List Byte → State → Out) : Out :=
  match s.bh with
  | none => .fault .unwrittenHandle
  | some b =>
    match askExec t s with
    | .ok a => k a.1 a.2.1 (record (.busExec b t Config.tTmoMs a.1 a.2.1) a.2.2)
    | .error r => .refused r

/-- `Delay(ms)` (R250): an event, and time at the device; it cannot fail (DESIGN CHOICE, log entry 20: untimed). -/
def delay (ms : Nat) (s : State) : State := record (.delay ms) { s with dev := devDelay ms s.dev }

/-- A pure operation (R33, R292): one step from `IDLE` to `IDLE`; a request while BUSY is refused (R254). -/
def whenIdle (body : State → Out) (s : State) : Out :=
  match s.ph with
  | .idle => body s
  | .run _ _ => .refused .busy

/-- An operation with external calls (R31, R32). At `IDLE` the request is accepted: `PH` becomes `Run(op, 0)`, and `start`
is the computation before the first call. At `Run(op, k)` of this very operation its call `k` is made, and where that
call is the last the operation ends in the same step: `PH` goes from Run(op, n-1) to `IDLE` and never rests at Run(op, n)
(DESIGN CHOICE, log entry 23; safe). While another operation runs the request is refused (R254). -/
def sequenced (i : Instr) (start : State → State) (call : Nat → State → Out) (s : State) : Out :=
  match s.ph with
  | .idle => .next { start s with ph := .run i 0 }
  | .run j k => if j = i then call k s else .refused .busy

end Sys2Proof.Machine
end

