-- ==== Sys2Proof/Machine/Crc.lean ====
section
/-! DEFINITION. CRCCHK (R110). -/

namespace Sys2Proof.Machine

/-- CRCCHK (R110): `CRC_OK` and the result are the verdict; an invalid checksum is no error. -/
def execCrcchk (raw : Raw16) (crc : Byte) (s : State) : Out :=
  whenIdle (fun s => returnOk (some (.bool (isCrcValid raw crc))) (crcEval raw crc s)) s

end Sys2Proof.Machine
end

