-- ==== Sys2Proof/Machine/Lifecycle.lean ====
section
/-! DEFINITION. Lifecycle: SRST (R217 to R222) and INIT (R210 to R216). -/

namespace Sys2Proof.Machine

/-- The reset command (R218, R220): a failure ends the operation at once, without the settle delay (R219; D11). -/
def resetCall (s : State) : Out :=
  busExec (tCmd Config.cmdSrst) s fun r _ s => gate r raise s fun s => .next (advance s)

/-- The settle delay and the return (R218, R219). -/
def settleCall (s : State) : Out := returnOk none (delay Config.tSrstMs s)

/-- The calls of SRST (R218). -/
def srstCall (k : Nat) (s : State) : Out :=
  match k with
  | 0 => resetCall s
  | 1 => settleCall s
  | _ => .fault .phaseOutsideCallList

/-- SRST (R217). -/
def execSrst (s : State) : Out := sequenced .srst id srstCall s

/-- The calls of INIT (R211): configuration (R212), activation (R213), probe, whose every failure is `NotFoundError` (R214),
and the two calls of SRST (R215).
The last of the five ends INIT in its own step, so that `PH` never rests at Run(INIT, 5), which R31 allows (DESIGN CHOICE, log
entry 23; safe). -/
def initCall (b : BusId) (dp cp : Pin) (dpu cpu : Bool) (k : Nat) (s : State) : Out :=
  match k with
  | 0 => busConfig b dp cp dpu cpu s fun ok s => if ok then .next (advance s) else raise .configurationError s
  | 1 => busInstall b s fun ok s => if ok then .next (advance s) else raise .installError s
  | 2 => busExec tProbe s fun r _ s => if r = .ok then .next (advance s) else raise .notFoundError s
  | 3 => resetCall s
  | 4 => settleCall s
  | _ => .fault .phaseOutsideCallList

/-- INIT (R210): `BH` is written before the first call and stays written (R211, R216; D7). -/
def execInit (b : BusId) (dp cp : Pin) (dpu cpu : Bool) (s : State) : Out :=
  sequenced (.init b dp cp dpu cpu) (fun s => { s with bh := some b }) (initCall b dp cp dpu cpu) s

end Sys2Proof.Machine
end

