-- ==== Sys2Proof/Machine/Conversion.lean ====
section
/-! DEFINITION. The unit-conversion operations (R130 to R145). Each formula is first the exact rational of the rule. -/

namespace Sys2Proof.Machine

/-- CVTT over the rationals (R131): `raw * 175.72 / 65536 - 46.85`. -/
def cvttReal (raw : Raw16) : Rat := (raw.toNat : Rat) * (17572 / 100) / 65536 - 4685 / 100

/-- CVTH over the rationals (R132): `raw * 125 / 65536 - 6`. -/
def cvthReal (raw : Raw16) : Rat := (raw.toNat : Rat) * 125 / 65536 - 6

/-- C2F over the rationals (R133): `c * 9 / 5 + 32`. -/
def c2fReal (c : Rat) : Rat := c * 9 / 5 + 32

/-- CMPRH over the rationals (R134): `rh + (25 - t) * (-3/20)`. -/
def cmprhReal (t h : Rat) : Rat := h + (25 - t) * (-3 / 20)

/-- CVTT rounded (R131, R139). -/
def convT (m : Rounding) (raw : Raw16) : F32 :=
  match m with
  | .rne32 => rne32 (cvttReal raw)
  | .build => Config.buildCvtt raw

/-- CVTH rounded (R132): the result is exact, so that every build gives it. -/
def convH (raw : Raw16) : F32 := rne32 (cvthReal raw)

/-- C2F rounded (R133, R139). -/
def convC2f (m : Rounding) (c : F32) : F32 :=
  match m with
  | .rne32 => rne32 (c2fReal (f32Val c))
  | .build => Config.buildC2f c

/-- CMPRH rounded (R134, R139). -/
def convCmprh (m : Rounding) (t h : F32) : F32 :=
  match m with
  | .rne32 => rne32 (cmprhReal (f32Val t) (f32Val h))
  | .build => Config.buildCmprh t h

/-- The temperatures for which a claim may assume something of `NUM.ppres` (R143, R144): finite, -46.85 to 128.87. -/
def tempDomain (t : F32) : Bool :=
  f32Finite t && decide (-(4685 / 100) ≤ f32Val t) && decide (f32Val t ≤ 12887 / 100)

/-- The humidities for which a claim may assume something of `NUM.dewpt` (R143, R145): finite, above 0, up to 200. -/
def humidityDomain (h : F32) : Bool := f32Finite h && decide (0 < f32Val h) && decide (f32Val h ≤ 200)

/-- CVTT (R131). -/
def execCvtt (raw : Raw16) (s : State) : Out :=
  whenIdle (fun s => returnOk (some (.f32 (convT s.cfg.round raw))) s) s

/-- CVTH (R132). -/
def execCvth (raw : Raw16) (s : State) : Out :=
  whenIdle (fun s => returnOk (some (.f32 (convH raw))) s) s

/-- C2F (R133); any value for a NaN or an infinity (R137). -/
def execC2f (c : F32) (s : State) : Out :=
  whenIdle (fun s => if f32Finite c then returnOk (some (.f32 (convC2f s.cfg.round c))) s else returnAny s) s

/-- CMPRH (R134), not clamped (R138); any value for a NaN or an infinity (R137). -/
def execCmprh (t h : F32) (s : State) : Out :=
  whenIdle (fun s =>
    if f32Finite t && f32Finite h then returnOk (some (.f32 (convCmprh s.cfg.round t h))) s else returnAny s) s

/-- PPRES (R135, R141): `NUM.ppres`; any value outside its domain (R144). -/
def execPpres (t : F32) (s : State) : Out :=
  whenIdle (fun s => if tempDomain t then returnOk (some (.f32 (Config.numPpres t))) s else returnAny s) s

/-- DEWPT (R136, R142): `NUM.dewpt`; any value outside its domain (R145). -/
def execDewpt (t h : F32) (s : State) : Out :=
  whenIdle (fun s =>
    if tempDomain t && humidityDomain h then returnOk (some (.f32 (Config.numDewpt t h))) s else returnAny s) s

end Sys2Proof.Machine
end

