-- ==== Sys2Proof/Machine/Measurement.lean ====
section
/-! DEFINITION. The measurement sequence RDVAL (R160 to R165), RDT and RDH (R166, R167), and the legacy view (R170). -/

namespace Sys2Proof.Machine

/-- The binary32 -999.0 (R170). -/
def minus999 : F32 := 0xC479C000

/-- The legacy outputs of a measurement that ended with this status and value (R170): set only where `LEGACY_VIEW` is on. -/
def legacyView (conv : Rounding → Raw16 → F32) (st : Status) (v : Option Raw16) (s : State) : State :=
  if s.cfg.legacyView then
    let lr : Raw16 := if st = .ok then v.getD 0 else 0
    { s with legacyRaw := some lr, legacyEng := some (if lr = 0 then minus999 else conv s.cfg.round lr) }
  else s

/-- The end of a measurement (R165, R168, R240), with the legacy outputs. -/
def endMeasurement (conv : Rounding → Raw16 → F32) (st : Status) (v : Option Raw16) (s : State) : Out :=
  .next (legacyView conv st v (finish st (v.map .u16) s))

/-- The registers after the read phase (R161, R163): three bytes, the raw value, and the check over the unmasked raw value. -/
def takeFrame (b0 b1 b2 : Byte) (s : State) : State :=
  crcEval (assembleRaw b0 b1) b2
    { s with msb := some b0, lsb := some b1, cks := some b2, raw := some (assembleRaw b0 b1) }

/-- The calls of RDVAL (R161): trigger, wait, read, and on a mismatch the diagnostic, after which the policy decides (R164). -/
def rdvalCall (conv : Rounding → Raw16 → F32) (k : Nat) (s : State) : Out :=
  match k with
  | 0 => readReg s.cmd fun c => busExec (tCmd c) s fun r _ s =>
      gate r (fun st s => endMeasurement conv st none s) s fun s => .next (advance s)
  | 1 => .next (advance (delay Config.tConvMs s))
  | 2 => busExec (tRead 3) s fun r bs s =>
      gate r (fun st s => endMeasurement conv st none s) s fun s =>
        match bs with
        | [b0, b1, b2] =>
          if isCrcValid (assembleRaw b0 b1) b2 then
            endMeasurement conv .ok (some (maskStatus (assembleRaw b0 b1))) (takeFrame b0 b1 b2 s)
          else .next (advance (takeFrame b0 b1 b2 s))
        | _ => .refused .illTypedAnswer
  | 3 => readReg s.raw fun raw => readReg s.cks fun cks =>
      let s := record (.diag .crcMismatch raw cks) s
      match s.cfg.crcPolicy with
      | .enforce => endMeasurement conv .checksumMismatch none s
      | .warnAndProceed => endMeasurement conv .ok (some (maskStatus raw)) s
  | _ => .fault .phaseOutsideCallList

/-- RDT (R166): RDVAL with `0xF3`. -/
def execRdt (s : State) : Out :=
  sequenced .rdt (fun s => { s with cmd := some Config.cmdTrigTNh }) (rdvalCall convT) s

/-- RDH (R167): RDVAL with `0xF5`. -/
def execRdh (s : State) : Out :=
  sequenced .rdh (fun s => { s with cmd := some Config.cmdTrigHNh }) (rdvalCall (fun _ raw => convH raw)) s

end Sys2Proof.Machine
end

