-- ==== Sys2Proof/Machine/RegisterAccess.lean ====
section
/-! DEFINITION. User-register access: RDUR (R180 to R182) and WRUR (R183 to R185). -/

namespace Sys2Proof.Machine

/-- Phase 1 of a register read (R181): select the register. -/
def selectUregCall (s : State) : Out :=
  busExec (tCmd Config.cmdRdUreg) s fun r _ s => gate r raise s fun s => .next (advance s)

/-- Phase 2 of a register read (R181): one byte, kept in `REGV`; `use` is what the operation does with it. -/
def readUregCall (use : Byte → State → Out) (s : State) : Out :=
  busExec (tRead 1) s fun r bs s => gate r raise s fun s =>
    match bs with
    | [b] => use b { s with regv := some b }
    | _ => .refused .illTypedAnswer

/-- The write of the user register (R184): command byte and data byte in one transaction (R85; D12). -/
def writeUregCall (v : Byte) (s : State) : Out :=
  busExec (tWrite [Config.cmdWrUreg, v]) s fun r _ s => gate r raise s fun s => returnOk none s

/-- The calls of RDUR (R181): the byte is returned as received (R182). -/
def rdurCall (k : Nat) (s : State) : Out :=
  match k with
  | 0 => selectUregCall s
  | 1 => readUregCall (fun b s => returnOk (some (.u8 b)) s) s
  | _ => .fault .phaseOutsideCallList

/-- RDUR (R180). -/
def execRdur (s : State) : Out := sequenced .rdur id rdurCall s

/-- The call of WRUR (R184): all eight bits as given (R185). -/
def wrurCall (v : Byte) (k : Nat) (s : State) : Out :=
  match k with
  | 0 => writeUregCall v s
  | _ => .fault .phaseOutsideCallList

/-- WRUR (R183). -/
def execWrur (v : Byte) (s : State) : Out := sequenced (.wrur v) id (wrurCall v) s

end Sys2Proof.Machine
end

