-- ==== Sys2Proof/Machine/Resolution.lean ====
section
/-! DEFINITION. Resolution configuration: GETRES (R195, R196) and SETRES (R197 to R201). -/

namespace Sys2Proof.Machine

/-- The calls of GETRES (R196): those of RDUR, and the byte masked to bits 7 and 0. -/
def getresCall (k : Nat) (s : State) : Out :=
  match k with
  | 0 => selectUregCall s
  | 1 => readUregCall (fun b s => returnOk (some (.u8 (resBits b))) s) s
  | _ => .fault .phaseOutsideCallList

/-- GETRES (R195). -/
def execGetres (s : State) : Out := sequenced .getres id getresCall s

/-- The calls of SETRES (R198): read, merge, write back; a failed read ends it before the write (R200; D13). -/
def setresCall (k : Nat) (s : State) : Out :=
  match k with
  | 0 => selectUregCall s
  | 1 => readUregCall (fun b s =>
      readReg s.resv fun r => .next (advance { s with merge := some (mergeRes b r) })) s
  | 2 => readReg s.merge fun m => writeUregCall m s
  | _ => .fault .phaseOutsideCallList

/-- SETRES (R197). -/
def execSetres (resolution : Byte) (s : State) : Out :=
  sequenced (.setres resolution) (fun s => { s with resv := some resolution }) setresCall s

end Sys2Proof.Machine
end

