-- ==== Sys2Proof/Machine/WireCommands.lean ====
section
/-! DEFINITION. The wire commands as the device takes them from a bus master other than the block (R86, R68, R73). What the
block itself writes reaches the same device operations through its transactions (DESIGN CHOICE, log entry
15; unsafe if `dev` is taken for the sensor). -/

namespace Sys2Proof.Machine

/-- A device that is present and not rebooting acknowledges a command and acts on it; otherwise nothing happens (R76). -/
def deviceTakes (f : Dev → Dev) (s : State) : Out :=
  if s.dev.present && !s.dev.rebooting then .next { s with dev := f s.dev } else .next s

/-- W_TRIG_T_NH (R86): start a temperature conversion. -/
def execWTrigTNh (s : State) : Out := deviceTakes (devTrigger .temperature) s

/-- W_TRIG_H_NH (R86): start a humidity conversion. -/
def execWTrigHNh (s : State) : Out := deviceTakes (devTrigger .humidity) s

/-- W_TRIG_T_H (R86, R96): the hold mode is not covered; "a model has no rule for a device that receives them"
(log entry 16; safe). -/
def execWTrigTH (_s : State) : Out := .refused .holdModeNotCovered

/-- W_TRIG_H_H (R86, R96): the hold mode is not covered; "a model has no rule for a device that receives them"
(log entry 16; safe). -/
def execWTrigHH (_s : State) : Out := .refused .holdModeNotCovered

/-- W_WR_UREG (R86, R53): the byte after the command replaces the user register. -/
def execWWrUreg (v : Byte) (s : State) : Out := deviceTakes (devWriteUr v) s

/-- W_RD_UREG (R86, R53): the next one-byte read returns the user register. -/
def execWRdUreg (s : State) : Out := deviceTakes devSelectUr s

/-- W_SRST (R86, R271): the device reinitializes. -/
def execWSrst (s : State) : Out := deviceTakes (devSoftReset s.cfg.dev) s

end Sys2Proof.Machine
end

