-- ==== Sys2Proof/Machine/Dispatch.lean ====
section
/-! DEFINITION. One arm per instruction, each a direct call of its meaning. -/

namespace Sys2Proof.Machine

def exec (i : Instr) (s : State) : Host.Outcome State Fault Refusal :=
  match i with
  | .crcchk raw crc => Sys2Proof.Machine.execCrcchk raw crc s
  | .cvtt raw => Sys2Proof.Machine.execCvtt raw s
  | .cvth raw => Sys2Proof.Machine.execCvth raw s
  | .c2f c => Sys2Proof.Machine.execC2f c s
  | .cmprh tempC rhPercent => Sys2Proof.Machine.execCmprh tempC rhPercent s
  | .ppres tempC => Sys2Proof.Machine.execPpres tempC s
  | .dewpt tempC rhPercent => Sys2Proof.Machine.execDewpt tempC rhPercent s
  | .rdt => Sys2Proof.Machine.execRdt s
  | .rdh => Sys2Proof.Machine.execRdh s
  | .rdur => Sys2Proof.Machine.execRdur s
  | .wrur value => Sys2Proof.Machine.execWrur value s
  | .getres => Sys2Proof.Machine.execGetres s
  | .setres resolution => Sys2Proof.Machine.execSetres resolution s
  | .init busId dataPin clockPin dataPullup clockPullup => Sys2Proof.Machine.execInit busId dataPin clockPin dataPullup clockPullup s
  | .srst => Sys2Proof.Machine.execSrst s
  | .wTrigTNh => Sys2Proof.Machine.execWTrigTNh s
  | .wTrigHNh => Sys2Proof.Machine.execWTrigHNh s
  | .wTrigTH => Sys2Proof.Machine.execWTrigTH s
  | .wTrigHH => Sys2Proof.Machine.execWTrigHH s
  | .wWrUreg value => Sys2Proof.Machine.execWWrUreg value s
  | .wRdUreg => Sys2Proof.Machine.execWRdUreg s
  | .wSrst => Sys2Proof.Machine.execWSrst s

end Sys2Proof.Machine
end

