-- ==== Sys2Proof/Machine/Fetch.lean ====
section
/-! DEFINITION. Which instruction a step runs, and how an opcode-table word is placed so that the next step runs it. -/

namespace Sys2Proof.Machine

/-- What there is to run: an instruction and the state to run it in, nothing, or a frame that is no instruction. -/
inductive Fetched where
  | instr (i : Instr) (s : State)
  | nothing
  | reject (r : Refusal)
  deriving DecidableEq, Repr

/-- The refusal that belongs to a decoding error (R97, R98). -/
def decodeRefusal (e : DecodeError) : Refusal :=
  match e with
  | .reservedSelector => .reservedSelector
  | .undefinedCommand => .undefinedCommand
  | .malformedFrame => .malformedFrame

/-- Decode a frame that has been taken from its queue. -/
def fetchFrame (f : Frame) (s : State) : Fetched :=
  match decode f with
  | .ok i => .instr i s
  | .error e => .reject (decodeRefusal e)

/-- What the next step runs. A frame another master has put on the bus comes first (log entry 3); then the operation in
progress, which no request disturbs (R254); then, at `IDLE`, the host's next request (R32 a). -/
def fetch (s : State) : Fetched :=
  match s.wire with
  | bs :: rest => fetchFrame (.wire bs) { s with wire := rest }
  | [] =>
    match s.ph with
    | .run i _ => .instr i s
    | .idle =>
      match s.host with
      | r :: rest => fetchFrame (.host r) { s with host := rest }
      | [] => .nothing

/-- Place a frame so that the next step takes it: a wire frame first on the bus, a host request first in the host's queue
with the sequencer idle and the bus quiet. -/
def placeFrame (f : Frame) (s : State) : State :=
  match f with
  | .wire bs => { s with wire := bs :: s.wire }
  | .host r => { s with host := r :: s.host, ph := .idle, wire := [] }

end Sys2Proof.Machine
end

