-- ==== Sys2Proof/Machine/Step.lean ====
section
/-! DEFINITION. One step of the machine: one external call, one whole pure operation, or one command taken by the device
(R12, R32). -/

namespace Sys2Proof.Machine

/-- A step runs what is fetched; with nothing to run the machine stays as it is, idle until the host presents a request
(R270). -/
def step (s : State) : Host.Outcome State Fault Refusal :=
  match fetch s with
  | .instr i t => exec i t
  | .nothing => .next s
  | .reject r => .refused r

/-- The state in which the next step fetches and runs exactly the instruction of this opcode-table word. -/
def State.withFetchWord (s : State) (nbits w : Nat) : State := placeFrame (frameOfTableWord nbits w) s

end Sys2Proof.Machine
end

