-- ==== Sys2Proof/Safety.lean ====
section
/-! DEFINITION. The terms claims use: what a step answered, the shape of the operations, the invariant of the machine, the
statuses an operation may end with, and the law a claim may assume of the numerics. -/

namespace Sys2Proof.Machine

/-- The next state, where the outcome is one. -/
def nextState (o : Out) : Option State :=
  match o with
  | .next s => some s
  | .fault _ => none
  | .refused _ => none

/-- The fault, where the outcome is one. -/
def faultOf (o : Out) : Option Fault :=
  match o with
  | .fault r => some r
  | .next _ => none
  | .refused _ => none

/-- The refusal, where the outcome is one. -/
def refusalOf (o : Out) : Option Refusal :=
  match o with
  | .refused r => some r
  | .next _ => none
  | .fault _ => none

/-- How many external calls the call list of an operation has (R90, R161, R181, R184, R196, R198, R211, R218); none for the
pure operations, and none for the wire commands, which are the device's. -/
def callCount (i : Instr) : Nat :=
  match i with
  | .rdt => 4
  | .rdh => 4
  | .rdur => 2
  | .wrur _ => 1
  | .getres => 2
  | .setres _ => 3
  | .init _ _ _ _ _ => 5
  | .srst => 2
  | .crcchk _ _ => 0
  | .cvtt _ => 0
  | .cvth _ => 0
  | .c2f _ => 0
  | .cmprh _ _ => 0
  | .ppres _ => 0
  | .dewpt _ _ => 0
  | .wTrigTNh => 0
  | .wTrigHNh => 0
  | .wTrigTH => 0
  | .wTrigHH => 0
  | .wWrUreg _ => 0
  | .wRdUreg => 0
  | .wSrst => 0

/-- The operations with external calls. -/
def isBusOp (i : Instr) : Bool := 0 < callCount i

/-- The pure operations (R33). -/
def isPure (i : Instr) : Bool := i.isHost && callCount i == 0

/-- What an accepted request computes before its first call: the command byte (R24, R161), the resolution operand (R29,
R198), the handle (R211). -/
def accepted (i : Instr) (s : State) : State :=
  match i with
  | .rdt => { s with cmd := some 0xF3 }
  | .rdh => { s with cmd := some 0xF5 }
  | .setres r => { s with resv := some r }
  | .init b _ _ _ _ => { s with bh := some b }
  | _ => s

/-- The two measurements (R166, R167): the operation, its command byte, and the conversion the legacy view uses for it (R170). -/
def IsMeasurement (i : Instr) (c : Byte) (conv : Rounding → Raw16 → F32) : Prop :=
  (i = .rdt ∧ c = 0xF3 ∧ conv = convT) ∨ (i = .rdh ∧ c = 0xF5 ∧ conv = fun _ raw => convH raw)

/-- The transaction that call `k` of an operation makes, where it is a `BusExec` (the call lists R161, R181, R184, R196, R198,
R211, R218). -/
def callTxn (i : Instr) (k : Nat) (s : State) : Option Txn :=
  match i, k with
  | .rdt, 0 => some (tWrite [0xF3])
  | .rdt, 2 => some (tRead 3)
  | .rdh, 0 => some (tWrite [0xF5])
  | .rdh, 2 => some (tRead 3)
  | .rdur, 0 => some (tWrite [0xE7])
  | .rdur, 1 => some (tRead 1)
  | .wrur v, 0 => some (tWrite [0xE6, v])
  | .getres, 0 => some (tWrite [0xE7])
  | .getres, 1 => some (tRead 1)
  | .setres _, 0 => some (tWrite [0xE7])
  | .setres _, 1 => some (tRead 1)
  | .setres _, 2 => s.merge.map fun m => tWrite [0xE6, m]
  | .init _ _ _ _ _, 2 => some tProbe
  | .init _ _ _ _ _, 3 => some (tWrite [0xFE])
  | .srst, 0 => some (tWrite [0xFE])
  | _, _ => none

/-- What a call asks of the transport: nothing (`Delay`, `Diag`), an `ok` or `fail`, or a result with a number of bytes (R252,
R58). -/
inductive CallKind where
  | silent
  | ack
  | exec (n : Nat)
  deriving DecidableEq, Repr

/-- What call `k` of an operation asks (the call lists R161, R181, R184, R196, R198, R211, R218). -/
def callKind (i : Instr) (k : Nat) : CallKind :=
  match i, k with
  | .rdt, 0 | .rdh, 0 | .rdur, 0 | .getres, 0 | .setres _, 0 | .srst, 0 => .exec 0
  | .rdt, 2 | .rdh, 2 => .exec 3
  | .rdur, 1 | .getres, 1 | .setres _, 1 => .exec 1
  | .wrur _, 0 | .setres _, 2 => .exec 0
  | .init _ _ _ _ _, 0 | .init _ _ _ _ _, 1 => .ack
  | .init _ _ _ _ _, 2 | .init _ _ _ _ _, 3 => .exec 0
  | _, _ => .silent

/-- What an operation still asks once it has made `k` calls. -/
def callsLeft (i : Instr) (k : Nat) : List CallKind := (List.range' k (callCount i - k)).map (callKind i)

/-- Each decided answer is of the type its call asks for (R58, R59), as far as answers are decided. -/
def AnswersFit : List CallKind → List Answer → Prop
  | [], _ => True
  | .silent :: ks, as => AnswersFit ks as
  | .ack :: ks, as =>
    match as with
    | [] => True
    | .ack _ :: rest => AnswersFit ks rest
    | _ :: _ => False
  | .exec n :: ks, as =>
    match as with
    | [] => True
    | .exec r bs :: rest => (r = .ok → bs.length = n) ∧ AnswersFit ks rest
    | _ :: _ => False

/-- `e` is call `k` of the operation, with the arguments its call list gives and with any answer. -/
def CallIs (i : Instr) (k : Nat) (s : State) (e : Event) : Prop :=
  match i, k with
  | .rdt, 1 => e = .delay 50
  | .rdh, 1 => e = .delay 50
  | .rdt, 3 => ∃ raw cks, s.raw = some raw ∧ s.cks = some cks ∧ e = .diag .crcMismatch raw cks
  | .rdh, 3 => ∃ raw cks, s.raw = some raw ∧ s.cks = some cks ∧ e = .diag .crcMismatch raw cks
  | .init b dp cp dpu cpu, 0 => ∃ ok, e = .busConfig b dp cp dpu cpu true 100000 ok
  | .init b _ _ _ _, 1 => ∃ ok, e = .busInstall b ok
  | .init _ _ _ _ _, 4 => e = .delay 15
  | .srst, 1 => e = .delay 15
  | i, k => ∃ t b r bs, callTxn i k s = some t ∧ s.bh = some b ∧ e = .busExec b t 1000 r bs

/-- The transactions the block issues (R52, R56, R60, R61): the probe, the four bare commands, the register write, and the
two reads. The hold-mode bytes are not among them (R96). -/
def IssuedTxn (t : Txn) : Prop :=
  t = tProbe ∨ (∃ c ∈ ([0xF3, 0xF5, 0xE7, 0xFE] : List Byte), t = tCmd c) ∨ (∃ v, t = tWrite [0xE6, v]) ∨
    t = tRead 1 ∨ t = tRead 3

/-- What every call in the trace respects: the constants of INIT (R212), the transactions with their timeout and the number
of bytes an answer has (R58), the two delays (R250), and a diagnostic only on a mismatch (R164). -/
def EventLegal (e : Event) : Prop :=
  match e with
  | .busConfig _ _ _ _ _ master hz _ => master = true ∧ hz = 100000
  | .busInstall _ _ => True
  | .busExec _ t tmo r bs => IssuedTxn t ∧ tmo = 1000 ∧ bs.length = if r = .ok then rbyteCount t else 0
  | .delay ms => ms = 50 ∨ ms = 15
  | .diag _ raw cks => isCrcValid raw cks = false

/-- No datapath register holds a value (R20, R21). -/
def DatapathDead (s : State) : Prop :=
  s.cmd = none ∧ s.msb = none ∧ s.lsb = none ∧ s.cks = none ∧ s.raw = none ∧ s.w = none ∧ s.it = none ∧ s.regv = none ∧
    s.resv = none ∧ s.merge = none

/-- What a measurement in progress holds: its command byte, and before the diagnostic a frame that failed its check. -/
def MeasurementLive (c : Byte) (k : Nat) (s : State) : Prop :=
  s.cmd = some c ∧
    (k = 3 → ∃ raw cks, s.raw = some raw ∧ s.cks = some cks ∧ isCrcValid raw cks = false ∧ s.crcOk = some false)

/-- The registers a running operation will still read hold its values, and at `IDLE` none holds one (R21). -/
def RegistersLive (s : State) : Prop :=
  match s.ph with
  | .idle => DatapathDead s
  | .run .rdt k => MeasurementLive 0xF3 k s
  | .run .rdh k => MeasurementLive 0xF5 k s
  | .run (.setres r) k => s.resv = some r ∧ (k = 2 → ∃ b, s.regv = some b ∧ s.merge = some (mergeRes b r))
  | .run (.init b _ _ _ _) _ => s.bh = some b
  | .run _ _ => True

/-- `PH` counts fewer calls than its operation has, and past the first call the handle is written (R31, R23). That `k` stops
below the number of calls, where R31 allows it to reach it, is the model's choice (log entry 23). -/
def PhaseLegal (s : State) : Prop :=
  match s.ph with
  | .idle => True
  | .run i k => k < callCount i ∧ (0 < k → s.bh ≠ none)

/-- A value only beside `Ok` (R30, R240). -/
def ResponseLegal (s : State) : Prop := s.val ≠ none → s.status = some .ok

/-- The legacy outputs hold something only where the view is on (R170). -/
def LegacyLegal (s : State) : Prop := s.cfg.legacyView = false → s.legacyRaw = none ∧ s.legacyEng = none

/-- The invariant of the machine. -/
def Invariant (s : State) : Prop :=
  PhaseLegal s ∧ RegistersLive s ∧ ResponseLegal s ∧ LegacyLegal s ∧ ∀ e ∈ s.trace, EventLegal e

/-- The statuses an operation can end with (R233). -/
def mayEndWith (p : CrcPolicy) (i : Instr) (st : Status) : Bool :=
  match i with
  | .rdt | .rdh =>
    [.ok, .invalidArgumentError, .transactionFailedError, .invalidDriverStateError, .timeoutError].contains st ||
      (st == .checksumMismatch && p == .enforce)
  | .rdur | .wrur _ | .getres | .setres _ | .srst =>
    [.ok, .invalidArgumentError, .transactionFailedError, .invalidDriverStateError, .timeoutError].contains st
  | .init _ _ _ _ _ => st != .checksumMismatch
  | _ => st == .ok

/-- `p` is the real number `PP(x)` of R135: `10 ^ (A - B / (x + C))`. R144 calls `PP` undefined at x = -C; there the relation
holds of the number that Lean's total division gives (DESIGN CHOICE, log entry 24; safe: every use is inside the domain of
R143). -/
def IsPP (x p : ℝ) : Prop := p = (10 : ℝ) ^ (81332 / 10000 - 176239 / 100 / (x + 23566 / 100))

/-- `d` is the real number `DP(x, h)` of R136: `-B / (log10(h * PP(x) / 100) - A) - C`. R145 calls `DP` undefined for a
logarithm of a non-positive number, at x = -C and for a zero denominator; there the relation holds of the number that Lean's
total division and `Real.logb` give (DESIGN CHOICE, log entry 24; safe: every use is inside the domain of R143). -/
def IsDP (x h d : ℝ) : Prop :=
  ∃ p, IsPP x p ∧ d = -(176239 / 100) / (Real.logb 10 (h * p / 100) - 81332 / 10000) - 23566 / 100

/-- The named property a claim may assume of the two numerics fields (R143; D16); the two tolerances are OPEN, non-negative
rationals (R6). Nothing in the machine rests on it. R11 gives no value to a NaN or an infinity, and here such a result counts
with the number `f32Val` reads from its bits, 2 ^ 128 or more in size (DESIGN CHOICE, log entry 22; safe: as a hypothesis the law
then holds of more functions, and for tolerances up to 2 ^ 64 of the same ones). -/
def NumericsLaw (ppres : F32 → F32) (dewpt : F32 → F32 → F32) (rtol atolDp : NNRat) : Prop :=
  (∀ t p, tempDomain t = true → IsPP (f32Val t : ℝ) p → |(f32Val (ppres t) : ℝ) - p| ≤ ((rtol : ℚ) : ℝ) * p) ∧
    ∀ t h d, tempDomain t = true → humidityDomain h = true → IsDP (f32Val t : ℝ) (f32Val h : ℝ) d →
      |(f32Val (dewpt t h) : ℝ) - d| ≤ ((atolDp : ℚ) : ℝ)

/-- An instruction with its bus and pin names replaced (R88: INIT alone has any). -/
def renameInstr (f : BusId → BusId) (g : Pin → Pin) (i : Instr) : Instr :=
  match i with
  | .init b dp cp dpu cpu => .init (f b) (g dp) (g cp) dpu cpu
  | i => i

/-- A request with the names on its ports replaced. -/
def renameRequest (f : BusId → BusId) (g : Pin → Pin) (r : HostRequest) : HostRequest :=
  { r with ports := { r.ports with
      busId := f r.ports.busId, dataPin := g r.ports.dataPin, clockPin := g r.ports.clockPin } }

/-- `PH` with the names in its operation replaced. -/
def renamePhase (f : BusId → BusId) (g : Pin → Pin) (ph : Phase) : Phase :=
  match ph with
  | .idle => .idle
  | .run i k => .run (renameInstr f g i) k

/-- A call with the names in its arguments replaced. -/
def renameEvent (f : BusId → BusId) (g : Pin → Pin) (e : Event) : Event :=
  match e with
  | .busConfig b dp cp dpu cpu master hz ok => .busConfig (f b) (g dp) (g cp) dpu cpu master hz ok
  | .busInstall b ok => .busInstall (f b) ok
  | .busExec b t tmo r bs => .busExec (f b) t tmo r bs
  | .delay ms => .delay ms
  | .diag kind raw cks => .diag kind raw cks

/-- A state with every bus and pin name in it replaced (R6, R88; D22). -/
def renameState (f : BusId → BusId) (g : Pin → Pin) (s : State) : State :=
  { s with bh := s.bh.map f, ph := renamePhase f g s.ph, trace := s.trace.map (renameEvent f g),
           host := s.host.map (renameRequest f g) }

/-- An outcome with its next state mapped. -/
def mapNext (f : State → State) (o : Out) : Out :=
  match o with
  | .next s => .next (f s)
  | .fault r => .fault r
  | .refused r => .refused r

end Sys2Proof.Machine
end

