-- ==== Sys2Proof/Laws/State.lean ====
section
/-! SUPPORT. What each update of the state does to each field: one lemma per field and update, so that no later proof unfolds
a record update. -/

namespace Sys2Proof.Machine

@[simp] theorem record_bh (e : Event) (s : State) : (record e s).bh = s.bh := rfl
@[simp] theorem record_ph (e : Event) (s : State) : (record e s).ph = s.ph := rfl
@[simp] theorem record_status (e : Event) (s : State) : (record e s).status = s.status := rfl
@[simp] theorem record_val (e : Event) (s : State) : (record e s).val = s.val := rfl
@[simp] theorem record_cmd (e : Event) (s : State) : (record e s).cmd = s.cmd := rfl
@[simp] theorem record_msb (e : Event) (s : State) : (record e s).msb = s.msb := rfl
@[simp] theorem record_lsb (e : Event) (s : State) : (record e s).lsb = s.lsb := rfl
@[simp] theorem record_cks (e : Event) (s : State) : (record e s).cks = s.cks := rfl
@[simp] theorem record_raw (e : Event) (s : State) : (record e s).raw = s.raw := rfl
@[simp] theorem record_w (e : Event) (s : State) : (record e s).w = s.w := rfl
@[simp] theorem record_it (e : Event) (s : State) : (record e s).it = s.it := rfl
@[simp] theorem record_crcOk (e : Event) (s : State) : (record e s).crcOk = s.crcOk := rfl
@[simp] theorem record_regv (e : Event) (s : State) : (record e s).regv = s.regv := rfl
@[simp] theorem record_resv (e : Event) (s : State) : (record e s).resv = s.resv := rfl
@[simp] theorem record_merge (e : Event) (s : State) : (record e s).merge = s.merge := rfl
@[simp] theorem record_legacyRaw (e : Event) (s : State) : (record e s).legacyRaw = s.legacyRaw := rfl
@[simp] theorem record_legacyEng (e : Event) (s : State) : (record e s).legacyEng = s.legacyEng := rfl
@[simp] theorem record_cfg (e : Event) (s : State) : (record e s).cfg = s.cfg := rfl
@[simp] theorem record_trace (e : Event) (s : State) : (record e s).trace = s.trace ++ [e] := rfl
@[simp] theorem record_host (e : Event) (s : State) : (record e s).host = s.host := rfl
@[simp] theorem record_wire (e : Event) (s : State) : (record e s).wire = s.wire := rfl
@[simp] theorem record_link (e : Event) (s : State) : (record e s).link = s.link := rfl
@[simp] theorem record_answers (e : Event) (s : State) : (record e s).answers = s.answers := rfl
@[simp] theorem record_seq (e : Event) (s : State) : (record e s).seq = s.seq := rfl
@[simp] theorem record_dev (e : Event) (s : State) : (record e s).dev = s.dev := rfl

@[simp] theorem killDatapath_bh (s : State) : (killDatapath s).bh = s.bh := rfl
@[simp] theorem killDatapath_ph (s : State) : (killDatapath s).ph = s.ph := rfl
@[simp] theorem killDatapath_status (s : State) : (killDatapath s).status = s.status := rfl
@[simp] theorem killDatapath_val (s : State) : (killDatapath s).val = s.val := rfl
@[simp] theorem killDatapath_cmd (s : State) : (killDatapath s).cmd = none := rfl
@[simp] theorem killDatapath_msb (s : State) : (killDatapath s).msb = none := rfl
@[simp] theorem killDatapath_lsb (s : State) : (killDatapath s).lsb = none := rfl
@[simp] theorem killDatapath_cks (s : State) : (killDatapath s).cks = none := rfl
@[simp] theorem killDatapath_raw (s : State) : (killDatapath s).raw = none := rfl
@[simp] theorem killDatapath_w (s : State) : (killDatapath s).w = none := rfl
@[simp] theorem killDatapath_it (s : State) : (killDatapath s).it = none := rfl
@[simp] theorem killDatapath_crcOk (s : State) : (killDatapath s).crcOk = s.crcOk := rfl
@[simp] theorem killDatapath_regv (s : State) : (killDatapath s).regv = none := rfl
@[simp] theorem killDatapath_resv (s : State) : (killDatapath s).resv = none := rfl
@[simp] theorem killDatapath_merge (s : State) : (killDatapath s).merge = none := rfl
@[simp] theorem killDatapath_legacyRaw (s : State) : (killDatapath s).legacyRaw = s.legacyRaw := rfl
@[simp] theorem killDatapath_legacyEng (s : State) : (killDatapath s).legacyEng = s.legacyEng := rfl
@[simp] theorem killDatapath_cfg (s : State) : (killDatapath s).cfg = s.cfg := rfl
@[simp] theorem killDatapath_trace (s : State) : (killDatapath s).trace = s.trace := rfl
@[simp] theorem killDatapath_host (s : State) : (killDatapath s).host = s.host := rfl
@[simp] theorem killDatapath_wire (s : State) : (killDatapath s).wire = s.wire := rfl
@[simp] theorem killDatapath_link (s : State) : (killDatapath s).link = s.link := rfl
@[simp] theorem killDatapath_answers (s : State) : (killDatapath s).answers = s.answers := rfl
@[simp] theorem killDatapath_seq (s : State) : (killDatapath s).seq = s.seq := rfl
@[simp] theorem killDatapath_dev (s : State) : (killDatapath s).dev = s.dev := rfl

@[simp] theorem finish_bh (st : Status) (v : Option Value) (s : State) : (finish st v s).bh = s.bh := rfl
@[simp] theorem finish_ph (st : Status) (v : Option Value) (s : State) : (finish st v s).ph = .idle := rfl
@[simp] theorem finish_status (st : Status) (v : Option Value) (s : State) : (finish st v s).status = some st := rfl
@[simp] theorem finish_val (st : Status) (v : Option Value) (s : State) : (finish st v s).val = v := rfl
@[simp] theorem finish_cmd (st : Status) (v : Option Value) (s : State) : (finish st v s).cmd = none := rfl
@[simp] theorem finish_msb (st : Status) (v : Option Value) (s : State) : (finish st v s).msb = none := rfl
@[simp] theorem finish_lsb (st : Status) (v : Option Value) (s : State) : (finish st v s).lsb = none := rfl
@[simp] theorem finish_cks (st : Status) (v : Option Value) (s : State) : (finish st v s).cks = none := rfl
@[simp] theorem finish_raw (st : Status) (v : Option Value) (s : State) : (finish st v s).raw = none := rfl
@[simp] theorem finish_w (st : Status) (v : Option Value) (s : State) : (finish st v s).w = none := rfl
@[simp] theorem finish_it (st : Status) (v : Option Value) (s : State) : (finish st v s).it = none := rfl
@[simp] theorem finish_crcOk (st : Status) (v : Option Value) (s : State) : (finish st v s).crcOk = s.crcOk := rfl
@[simp] theorem finish_regv (st : Status) (v : Option Value) (s : State) : (finish st v s).regv = none := rfl
@[simp] theorem finish_resv (st : Status) (v : Option Value) (s : State) : (finish st v s).resv = none := rfl
@[simp] theorem finish_merge (st : Status) (v : Option Value) (s : State) : (finish st v s).merge = none := rfl
@[simp] theorem finish_legacyRaw (st : Status) (v : Option Value) (s : State) : (finish st v s).legacyRaw = s.legacyRaw := rfl
@[simp] theorem finish_legacyEng (st : Status) (v : Option Value) (s : State) : (finish st v s).legacyEng = s.legacyEng := rfl
@[simp] theorem finish_cfg (st : Status) (v : Option Value) (s : State) : (finish st v s).cfg = s.cfg := rfl
@[simp] theorem finish_trace (st : Status) (v : Option Value) (s : State) : (finish st v s).trace = s.trace := rfl
@[simp] theorem finish_host (st : Status) (v : Option Value) (s : State) : (finish st v s).host = s.host := rfl
@[simp] theorem finish_wire (st : Status) (v : Option Value) (s : State) : (finish st v s).wire = s.wire := rfl
@[simp] theorem finish_link (st : Status) (v : Option Value) (s : State) : (finish st v s).link = s.link := rfl
@[simp] theorem finish_answers (st : Status) (v : Option Value) (s : State) : (finish st v s).answers = s.answers := rfl
@[simp] theorem finish_seq (st : Status) (v : Option Value) (s : State) : (finish st v s).seq = s.seq := rfl
@[simp] theorem finish_dev (st : Status) (v : Option Value) (s : State) : (finish st v s).dev = s.dev := rfl

@[simp] theorem delay_bh (ms : Nat) (s : State) : (delay ms s).bh = s.bh := rfl
@[simp] theorem delay_ph (ms : Nat) (s : State) : (delay ms s).ph = s.ph := rfl
@[simp] theorem delay_status (ms : Nat) (s : State) : (delay ms s).status = s.status := rfl
@[simp] theorem delay_val (ms : Nat) (s : State) : (delay ms s).val = s.val := rfl
@[simp] theorem delay_cmd (ms : Nat) (s : State) : (delay ms s).cmd = s.cmd := rfl
@[simp] theorem delay_msb (ms : Nat) (s : State) : (delay ms s).msb = s.msb := rfl
@[simp] theorem delay_lsb (ms : Nat) (s : State) : (delay ms s).lsb = s.lsb := rfl
@[simp] theorem delay_cks (ms : Nat) (s : State) : (delay ms s).cks = s.cks := rfl
@[simp] theorem delay_raw (ms : Nat) (s : State) : (delay ms s).raw = s.raw := rfl
@[simp] theorem delay_w (ms : Nat) (s : State) : (delay ms s).w = s.w := rfl
@[simp] theorem delay_it (ms : Nat) (s : State) : (delay ms s).it = s.it := rfl
@[simp] theorem delay_crcOk (ms : Nat) (s : State) : (delay ms s).crcOk = s.crcOk := rfl
@[simp] theorem delay_regv (ms : Nat) (s : State) : (delay ms s).regv = s.regv := rfl
@[simp] theorem delay_resv (ms : Nat) (s : State) : (delay ms s).resv = s.resv := rfl
@[simp] theorem delay_merge (ms : Nat) (s : State) : (delay ms s).merge = s.merge := rfl
@[simp] theorem delay_legacyRaw (ms : Nat) (s : State) : (delay ms s).legacyRaw = s.legacyRaw := rfl
@[simp] theorem delay_legacyEng (ms : Nat) (s : State) : (delay ms s).legacyEng = s.legacyEng := rfl
@[simp] theorem delay_cfg (ms : Nat) (s : State) : (delay ms s).cfg = s.cfg := rfl
@[simp] theorem delay_trace (ms : Nat) (s : State) : (delay ms s).trace = s.trace ++ [.delay ms] := rfl
@[simp] theorem delay_host (ms : Nat) (s : State) : (delay ms s).host = s.host := rfl
@[simp] theorem delay_wire (ms : Nat) (s : State) : (delay ms s).wire = s.wire := rfl
@[simp] theorem delay_link (ms : Nat) (s : State) : (delay ms s).link = s.link := rfl
@[simp] theorem delay_answers (ms : Nat) (s : State) : (delay ms s).answers = s.answers := rfl
@[simp] theorem delay_seq (ms : Nat) (s : State) : (delay ms s).seq = s.seq := rfl
@[simp] theorem delay_dev (ms : Nat) (s : State) : (delay ms s).dev = devDelay ms s.dev := rfl

@[simp] theorem crcEval_bh (raw : Raw16) (crc : Byte) (s : State) : (crcEval raw crc s).bh = s.bh := rfl
@[simp] theorem crcEval_ph (raw : Raw16) (crc : Byte) (s : State) : (crcEval raw crc s).ph = s.ph := rfl
@[simp] theorem crcEval_status (raw : Raw16) (crc : Byte) (s : State) : (crcEval raw crc s).status = s.status := rfl
@[simp] theorem crcEval_val (raw : Raw16) (crc : Byte) (s : State) : (crcEval raw crc s).val = s.val := rfl
@[simp] theorem crcEval_cmd (raw : Raw16) (crc : Byte) (s : State) : (crcEval raw crc s).cmd = s.cmd := rfl
@[simp] theorem crcEval_msb (raw : Raw16) (crc : Byte) (s : State) : (crcEval raw crc s).msb = s.msb := rfl
@[simp] theorem crcEval_lsb (raw : Raw16) (crc : Byte) (s : State) : (crcEval raw crc s).lsb = s.lsb := rfl
@[simp] theorem crcEval_cks (raw : Raw16) (crc : Byte) (s : State) : (crcEval raw crc s).cks = s.cks := rfl
@[simp] theorem crcEval_raw (raw : Raw16) (crc : Byte) (s : State) : (crcEval raw crc s).raw = s.raw := rfl
@[simp] theorem crcEval_w (raw : Raw16) (crc : Byte) (s : State) : (crcEval raw crc s).w = some (crcDivide (crcLoad raw crc)) := rfl
@[simp] theorem crcEval_it (raw : Raw16) (crc : Byte) (s : State) : (crcEval raw crc s).it = some 16 := rfl
@[simp] theorem crcEval_crcOk (raw : Raw16) (crc : Byte) (s : State) : (crcEval raw crc s).crcOk = some (isCrcValid raw crc) := rfl
@[simp] theorem crcEval_regv (raw : Raw16) (crc : Byte) (s : State) : (crcEval raw crc s).regv = s.regv := rfl
@[simp] theorem crcEval_resv (raw : Raw16) (crc : Byte) (s : State) : (crcEval raw crc s).resv = s.resv := rfl
@[simp] theorem crcEval_merge (raw : Raw16) (crc : Byte) (s : State) : (crcEval raw crc s).merge = s.merge := rfl
@[simp] theorem crcEval_legacyRaw (raw : Raw16) (crc : Byte) (s : State) : (crcEval raw crc s).legacyRaw = s.legacyRaw := rfl
@[simp] theorem crcEval_legacyEng (raw : Raw16) (crc : Byte) (s : State) : (crcEval raw crc s).legacyEng = s.legacyEng := rfl
@[simp] theorem crcEval_cfg (raw : Raw16) (crc : Byte) (s : State) : (crcEval raw crc s).cfg = s.cfg := rfl
@[simp] theorem crcEval_trace (raw : Raw16) (crc : Byte) (s : State) : (crcEval raw crc s).trace = s.trace := rfl
@[simp] theorem crcEval_host (raw : Raw16) (crc : Byte) (s : State) : (crcEval raw crc s).host = s.host := rfl
@[simp] theorem crcEval_wire (raw : Raw16) (crc : Byte) (s : State) : (crcEval raw crc s).wire = s.wire := rfl
@[simp] theorem crcEval_link (raw : Raw16) (crc : Byte) (s : State) : (crcEval raw crc s).link = s.link := rfl
@[simp] theorem crcEval_answers (raw : Raw16) (crc : Byte) (s : State) : (crcEval raw crc s).answers = s.answers := rfl
@[simp] theorem crcEval_seq (raw : Raw16) (crc : Byte) (s : State) : (crcEval raw crc s).seq = s.seq := rfl
@[simp] theorem crcEval_dev (raw : Raw16) (crc : Byte) (s : State) : (crcEval raw crc s).dev = s.dev := rfl

@[simp] theorem takeFrame_bh (b0 b1 b2 : Byte) (s : State) : (takeFrame b0 b1 b2 s).bh = s.bh := rfl
@[simp] theorem takeFrame_ph (b0 b1 b2 : Byte) (s : State) : (takeFrame b0 b1 b2 s).ph = s.ph := rfl
@[simp] theorem takeFrame_status (b0 b1 b2 : Byte) (s : State) : (takeFrame b0 b1 b2 s).status = s.status := rfl
@[simp] theorem takeFrame_val (b0 b1 b2 : Byte) (s : State) : (takeFrame b0 b1 b2 s).val = s.val := rfl
@[simp] theorem takeFrame_cmd (b0 b1 b2 : Byte) (s : State) : (takeFrame b0 b1 b2 s).cmd = s.cmd := rfl
@[simp] theorem takeFrame_msb (b0 b1 b2 : Byte) (s : State) : (takeFrame b0 b1 b2 s).msb = some b0 := rfl
@[simp] theorem takeFrame_lsb (b0 b1 b2 : Byte) (s : State) : (takeFrame b0 b1 b2 s).lsb = some b1 := rfl
@[simp] theorem takeFrame_cks (b0 b1 b2 : Byte) (s : State) : (takeFrame b0 b1 b2 s).cks = some b2 := rfl
@[simp] theorem takeFrame_raw (b0 b1 b2 : Byte) (s : State) : (takeFrame b0 b1 b2 s).raw = some (assembleRaw b0 b1) := rfl
@[simp] theorem takeFrame_w (b0 b1 b2 : Byte) (s : State) : (takeFrame b0 b1 b2 s).w = some (crcDivide (crcLoad (assembleRaw b0 b1) b2)) := rfl
@[simp] theorem takeFrame_it (b0 b1 b2 : Byte) (s : State) : (takeFrame b0 b1 b2 s).it = some 16 := rfl
@[simp] theorem takeFrame_crcOk (b0 b1 b2 : Byte) (s : State) : (takeFrame b0 b1 b2 s).crcOk = some (isCrcValid (assembleRaw b0 b1) b2) := rfl
@[simp] theorem takeFrame_regv (b0 b1 b2 : Byte) (s : State) : (takeFrame b0 b1 b2 s).regv = s.regv := rfl
@[simp] theorem takeFrame_resv (b0 b1 b2 : Byte) (s : State) : (takeFrame b0 b1 b2 s).resv = s.resv := rfl
@[simp] theorem takeFrame_merge (b0 b1 b2 : Byte) (s : State) : (takeFrame b0 b1 b2 s).merge = s.merge := rfl
@[simp] theorem takeFrame_legacyRaw (b0 b1 b2 : Byte) (s : State) : (takeFrame b0 b1 b2 s).legacyRaw = s.legacyRaw := rfl
@[simp] theorem takeFrame_legacyEng (b0 b1 b2 : Byte) (s : State) : (takeFrame b0 b1 b2 s).legacyEng = s.legacyEng := rfl
@[simp] theorem takeFrame_cfg (b0 b1 b2 : Byte) (s : State) : (takeFrame b0 b1 b2 s).cfg = s.cfg := rfl
@[simp] theorem takeFrame_trace (b0 b1 b2 : Byte) (s : State) : (takeFrame b0 b1 b2 s).trace = s.trace := rfl
@[simp] theorem takeFrame_host (b0 b1 b2 : Byte) (s : State) : (takeFrame b0 b1 b2 s).host = s.host := rfl
@[simp] theorem takeFrame_wire (b0 b1 b2 : Byte) (s : State) : (takeFrame b0 b1 b2 s).wire = s.wire := rfl
@[simp] theorem takeFrame_link (b0 b1 b2 : Byte) (s : State) : (takeFrame b0 b1 b2 s).link = s.link := rfl
@[simp] theorem takeFrame_answers (b0 b1 b2 : Byte) (s : State) : (takeFrame b0 b1 b2 s).answers = s.answers := rfl
@[simp] theorem takeFrame_seq (b0 b1 b2 : Byte) (s : State) : (takeFrame b0 b1 b2 s).seq = s.seq := rfl
@[simp] theorem takeFrame_dev (b0 b1 b2 : Byte) (s : State) : (takeFrame b0 b1 b2 s).dev = s.dev := rfl

@[simp] theorem advance_bh (s : State) : (advance s).bh = s.bh := by unfold advance; split <;> rfl
@[simp] theorem advance_status (s : State) : (advance s).status = s.status := by unfold advance; split <;> rfl
@[simp] theorem advance_val (s : State) : (advance s).val = s.val := by unfold advance; split <;> rfl
@[simp] theorem advance_cmd (s : State) : (advance s).cmd = s.cmd := by unfold advance; split <;> rfl
@[simp] theorem advance_msb (s : State) : (advance s).msb = s.msb := by unfold advance; split <;> rfl
@[simp] theorem advance_lsb (s : State) : (advance s).lsb = s.lsb := by unfold advance; split <;> rfl
@[simp] theorem advance_cks (s : State) : (advance s).cks = s.cks := by unfold advance; split <;> rfl
@[simp] theorem advance_raw (s : State) : (advance s).raw = s.raw := by unfold advance; split <;> rfl
@[simp] theorem advance_w (s : State) : (advance s).w = s.w := by unfold advance; split <;> rfl
@[simp] theorem advance_it (s : State) : (advance s).it = s.it := by unfold advance; split <;> rfl
@[simp] theorem advance_crcOk (s : State) : (advance s).crcOk = s.crcOk := by unfold advance; split <;> rfl
@[simp] theorem advance_regv (s : State) : (advance s).regv = s.regv := by unfold advance; split <;> rfl
@[simp] theorem advance_resv (s : State) : (advance s).resv = s.resv := by unfold advance; split <;> rfl
@[simp] theorem advance_merge (s : State) : (advance s).merge = s.merge := by unfold advance; split <;> rfl
@[simp] theorem advance_legacyRaw (s : State) : (advance s).legacyRaw = s.legacyRaw := by unfold advance; split <;> rfl
@[simp] theorem advance_legacyEng (s : State) : (advance s).legacyEng = s.legacyEng := by unfold advance; split <;> rfl
@[simp] theorem advance_cfg (s : State) : (advance s).cfg = s.cfg := by unfold advance; split <;> rfl
@[simp] theorem advance_trace (s : State) : (advance s).trace = s.trace := by unfold advance; split <;> rfl
@[simp] theorem advance_host (s : State) : (advance s).host = s.host := by unfold advance; split <;> rfl
@[simp] theorem advance_wire (s : State) : (advance s).wire = s.wire := by unfold advance; split <;> rfl
@[simp] theorem advance_link (s : State) : (advance s).link = s.link := by unfold advance; split <;> rfl
@[simp] theorem advance_answers (s : State) : (advance s).answers = s.answers := by unfold advance; split <;> rfl
@[simp] theorem advance_seq (s : State) : (advance s).seq = s.seq := by unfold advance; split <;> rfl
@[simp] theorem advance_dev (s : State) : (advance s).dev = s.dev := by unfold advance; split <;> rfl

theorem advance_ph_run (s : State) (i : Instr) (k : Nat) (h : s.ph = .run i k) : (advance s).ph = .run i (k + 1) := by
  simp only [advance, h]

theorem advance_ph_idle (s : State) (h : s.ph = .idle) : (advance s).ph = .idle := by
  simp only [advance, h]

@[simp] theorem legacyView_bh (conv : Rounding → Raw16 → F32) (st : Status) (v : Option Raw16) (s : State) : (legacyView conv st v s).bh = s.bh := by unfold legacyView; split <;> rfl
@[simp] theorem legacyView_ph (conv : Rounding → Raw16 → F32) (st : Status) (v : Option Raw16) (s : State) : (legacyView conv st v s).ph = s.ph := by unfold legacyView; split <;> rfl
@[simp] theorem legacyView_status (conv : Rounding → Raw16 → F32) (st : Status) (v : Option Raw16) (s : State) : (legacyView conv st v s).status = s.status := by unfold legacyView; split <;> rfl
@[simp] theorem legacyView_val (conv : Rounding → Raw16 → F32) (st : Status) (v : Option Raw16) (s : State) : (legacyView conv st v s).val = s.val := by unfold legacyView; split <;> rfl
@[simp] theorem legacyView_cmd (conv : Rounding → Raw16 → F32) (st : Status) (v : Option Raw16) (s : State) : (legacyView conv st v s).cmd = s.cmd := by unfold legacyView; split <;> rfl
@[simp] theorem legacyView_msb (conv : Rounding → Raw16 → F32) (st : Status) (v : Option Raw16) (s : State) : (legacyView conv st v s).msb = s.msb := by unfold legacyView; split <;> rfl
@[simp] theorem legacyView_lsb (conv : Rounding → Raw16 → F32) (st : Status) (v : Option Raw16) (s : State) : (legacyView conv st v s).lsb = s.lsb := by unfold legacyView; split <;> rfl
@[simp] theorem legacyView_cks (conv : Rounding → Raw16 → F32) (st : Status) (v : Option Raw16) (s : State) : (legacyView conv st v s).cks = s.cks := by unfold legacyView; split <;> rfl
@[simp] theorem legacyView_raw (conv : Rounding → Raw16 → F32) (st : Status) (v : Option Raw16) (s : State) : (legacyView conv st v s).raw = s.raw := by unfold legacyView; split <;> rfl
@[simp] theorem legacyView_w (conv : Rounding → Raw16 → F32) (st : Status) (v : Option Raw16) (s : State) : (legacyView conv st v s).w = s.w := by unfold legacyView; split <;> rfl
@[simp] theorem legacyView_it (conv : Rounding → Raw16 → F32) (st : Status) (v : Option Raw16) (s : State) : (legacyView conv st v s).it = s.it := by unfold legacyView; split <;> rfl
@[simp] theorem legacyView_crcOk (conv : Rounding → Raw16 → F32) (st : Status) (v : Option Raw16) (s : State) : (legacyView conv st v s).crcOk = s.crcOk := by unfold legacyView; split <;> rfl
@[simp] theorem legacyView_regv (conv : Rounding → Raw16 → F32) (st : Status) (v : Option Raw16) (s : State) : (legacyView conv st v s).regv = s.regv := by unfold legacyView; split <;> rfl
@[simp] theorem legacyView_resv (conv : Rounding → Raw16 → F32) (st : Status) (v : Option Raw16) (s : State) : (legacyView conv st v s).resv = s.resv := by unfold legacyView; split <;> rfl
@[simp] theorem legacyView_merge (conv : Rounding → Raw16 → F32) (st : Status) (v : Option Raw16) (s : State) : (legacyView conv st v s).merge = s.merge := by unfold legacyView; split <;> rfl
@[simp] theorem legacyView_cfg (conv : Rounding → Raw16 → F32) (st : Status) (v : Option Raw16) (s : State) : (legacyView conv st v s).cfg = s.cfg := by unfold legacyView; split <;> rfl
@[simp] theorem legacyView_trace (conv : Rounding → Raw16 → F32) (st : Status) (v : Option Raw16) (s : State) : (legacyView conv st v s).trace = s.trace := by unfold legacyView; split <;> rfl
@[simp] theorem legacyView_host (conv : Rounding → Raw16 → F32) (st : Status) (v : Option Raw16) (s : State) : (legacyView conv st v s).host = s.host := by unfold legacyView; split <;> rfl
@[simp] theorem legacyView_wire (conv : Rounding → Raw16 → F32) (st : Status) (v : Option Raw16) (s : State) : (legacyView conv st v s).wire = s.wire := by unfold legacyView; split <;> rfl
@[simp] theorem legacyView_link (conv : Rounding → Raw16 → F32) (st : Status) (v : Option Raw16) (s : State) : (legacyView conv st v s).link = s.link := by unfold legacyView; split <;> rfl
@[simp] theorem legacyView_answers (conv : Rounding → Raw16 → F32) (st : Status) (v : Option Raw16) (s : State) : (legacyView conv st v s).answers = s.answers := by unfold legacyView; split <;> rfl
@[simp] theorem legacyView_seq (conv : Rounding → Raw16 → F32) (st : Status) (v : Option Raw16) (s : State) : (legacyView conv st v s).seq = s.seq := by unfold legacyView; split <;> rfl
@[simp] theorem legacyView_dev (conv : Rounding → Raw16 → F32) (st : Status) (v : Option Raw16) (s : State) : (legacyView conv st v s).dev = s.dev := by unfold legacyView; split <;> rfl

theorem legacyView_off (conv : Rounding → Raw16 → F32) (st : Status) (v : Option Raw16) (s : State)
    (h : s.cfg.legacyView = false) : legacyView conv st v s = s := by
  simp [legacyView, h]

theorem legacyView_on_raw (conv : Rounding → Raw16 → F32) (st : Status) (v : Option Raw16) (s : State)
    (h : s.cfg.legacyView = true) :
    (legacyView conv st v s).legacyRaw = some (if st = .ok then v.getD 0 else 0) := by
  simp [legacyView, h]

theorem legacyView_on_eng (conv : Rounding → Raw16 → F32) (st : Status) (v : Option Raw16) (s : State)
    (h : s.cfg.legacyView = true) :
    (legacyView conv st v s).legacyEng =
      some (if (if st = .ok then v.getD 0 else 0) = 0 then minus999
        else conv s.cfg.round (if st = .ok then v.getD 0 else 0)) := by
  simp [legacyView, h]

/-- A finished operation leaves no datapath register with a value. -/
theorem finish_dead (st : Status) (v : Option Value) (s : State) : DatapathDead (finish st v s) := by
  simp [DatapathDead]

end Sys2Proof.Machine
end

