-- ==== Sys2Proof/Laws/Ops.lean ====
section
/-! SUPPORT. What each shared operation can do, said once: if it answers a next state, then one of these cases holds. -/

namespace Sys2Proof.Machine

/-- `s'` differs from `s` only where the transport and the device keep their own. -/
def OnlyTransport (s s' : State) : Prop := s' = { s with answers := s'.answers, seq := s'.seq, dev := s'.dev }

theorem rbyteCount_writeData (t : Txn) (bs : List Byte) (h : writeData t = some bs) : rbyteCount t = 0 := by
  induction t generalizing bs with
  | nil => rfl
  | cons x rest ih =>
    cases x with
    | wbyte b =>
      simp only [writeData] at h
      cases hr : writeData rest with
      | none => simp [hr] at h
      | some r => simpa [rbyteCount] using ih r hr
    | stop => cases rest <;> simp_all [writeData, rbyteCount]
    | start => simp [writeData] at h
    | addr a d => simp [writeData] at h
    | rbyte a => simp [writeData] at h

theorem rbyteCount_writeBytes (t : Txn) (bs : List Byte) (h : writeBytes t = some bs) : rbyteCount t = 0 := by
  unfold writeBytes at h
  split at h
  · split at h
    · simpa [rbyteCount] using rbyteCount_writeData _ _ h
    · simp at h
  · simp at h

/-- The responder answers with as many bytes as the transaction reads, and with none beside a failure. -/
theorem devRespond_length (p : DevParams) (t : Txn) (d : Dev) :
    (devRespond p t d).2.1.length = if (devRespond p t d).1 = .ok then rbyteCount t else 0 := by
  unfold devRespond
  split
  · simp
  split
  · simp
  split
  · subst t; simp [tProbe, rbyteCount]
  split
  · subst t
    split
    · split <;> simp [measFrame, tRead, rbyteCount]
    · simp
  split
  · subst t
    split <;> simp [tRead, rbyteCount]
  split
  · rename_i d' hd
    obtain ⟨bs, hb, -⟩ := Option.bind_eq_some_iff.mp hd
    simp [rbyteCount_writeBytes t bs hb]
  · simp

/-- An answer to a transaction: only the transport's own fields change, and the bytes are as many as R58 says. -/
theorem askExec_ok {t : Txn} {s s' : State} {r : BusResult} {bs : List Byte} (h : askExec t s = .ok (r, bs, s')) :
    OnlyTransport s s' ∧ bs.length = if r = .ok then rbyteCount t else 0 := by
  unfold askExec at h
  split at h
  · split at h
    · cases h
      refine ⟨rfl, ?_⟩
      split <;> simp
    · split at h
      · split at h
        · cases h
          refine ⟨rfl, by simp_all⟩
        · cases h
      · cases h
        exact ⟨rfl, by simp_all⟩
    · cases h
  · cases h
    exact ⟨rfl, devRespond_length _ _ _⟩

/-- An answer to `BusConfig` or `BusInstall`: only the transport's own fields change. -/
theorem askAck_ok {f : Dev → Bool × Dev} {s s' : State} {b : Bool} (h : askAck f s = .ok (b, s')) :
    OnlyTransport s s' := by
  unfold askAck at h
  split at h
  · split at h <;> cases h <;> rfl
  · cases h; rfl

/-- A `BusExec` that led on to a next state: the handle was written, the transport answered, the call is in the trace. -/
theorem busExec_next {t : Txn} {s u : State} {k : BusResult → List Byte → State → Out}
    (h : busExec t s k = .next u) :
    ∃ b r bs s', s.bh = some b ∧ askExec t s = .ok (r, bs, s') ∧
      k r bs (record (.busExec b t 1000 r bs) s') = .next u := by
  unfold busExec at h
  split at h
  · cases h
  · rename_i b hb
    split at h
    · rename_i a ha
      exact ⟨b, a.1, a.2.1, a.2.2, hb, ha, h⟩
    · cases h

/-- A `BusExec` with a written handle and an answer is its continuation on that answer. -/
theorem busExec_answered {t : Txn} {s s' : State} {b : BusId} {r : BusResult} {bs : List Byte}
    (hb : s.bh = some b) (ha : askExec t s = .ok (r, bs, s')) (k : BusResult → List Byte → State → Out) :
    busExec t s k = k r bs (record (.busExec b t 1000 r bs) s') := by
  simp [busExec, hb, ha, Config.tTmoMs]

theorem busExec_unwritten {t : Txn} {s : State} (hb : s.bh = none) (k : BusResult → List Byte → State → Out) :
    busExec t s k = .fault .unwrittenHandle := by
  simp [busExec, hb]

theorem busConfig_next {b : BusId} {dp cp : Pin} {dpu cpu : Bool} {s u : State} {k : Bool → State → Out}
    (h : busConfig b dp cp dpu cpu s k = .next u) :
    ∃ ok s', askAck (fun d => (true, d)) s = .ok (ok, s') ∧
      k ok (record (.busConfig b dp cp dpu cpu true 100000 ok) s') = .next u := by
  unfold busConfig at h
  split at h
  · rename_i a ha
    exact ⟨a.1, a.2, ha, h⟩
  · cases h

theorem busInstall_next {b : BusId} {s u : State} {k : Bool → State → Out} (h : busInstall b s k = .next u) :
    ∃ ok s', askAck devInstall s = .ok (ok, s') ∧ k ok (record (.busInstall b ok) s') = .next u := by
  unfold busInstall at h
  split at h
  · rename_i a ha
    exact ⟨a.1, a.2, ha, h⟩
  · cases h

theorem gate_ok (onFail : Status → State → Out) (s : State) (goOn : State → Out) :
    gate .ok onFail s goOn = goOn s := by
  simp [gate]

theorem gate_failed {r : BusResult} (hr : r ≠ .ok) (onFail : Status → State → Out) (s : State) (goOn : State → Out) :
    gate r onFail s goOn = onFail (statusOf r) s := by
  simp [gate, hr]

/-- A gate that led on to a next state either passed or ended the operation. -/
theorem gate_next {r : BusResult} {onFail : Status → State → Out} {s u : State} {goOn : State → Out}
    (h : gate r onFail s goOn = .next u) :
    (r = .ok ∧ goOn s = .next u) ∨ (r ≠ .ok ∧ onFail (statusOf r) s = .next u) := by
  unfold gate at h
  split at h
  · exact .inl ⟨‹_›, h⟩
  · exact .inr ⟨‹_›, h⟩

theorem readReg_next {α : Type} {r : Option α} {k : α → Out} {u : State} (h : readReg r k = .next u) :
    ∃ v, r = some v ∧ k v = .next u := by
  cases r with
  | none => cases h
  | some v => exact ⟨v, rfl, h⟩

theorem whenIdle_idle {s : State} (h : s.ph = .idle) (body : State → Out) : whenIdle body s = body s := by
  simp [whenIdle, h]

theorem whenIdle_next {body : State → Out} {s u : State} (h : whenIdle body s = .next u) :
    s.ph = .idle ∧ body s = .next u := by
  unfold whenIdle at h
  split at h
  · exact ⟨‹_›, h⟩
  · cases h

theorem sequenced_run {i : Instr} {start : State → State} {call : Nat → State → Out} {s : State} {k : Nat}
    (h : s.ph = .run i k) : sequenced i start call s = call k s := by
  simp [sequenced, h]

theorem sequenced_idle {i : Instr} {start : State → State} {call : Nat → State → Out} {s : State}
    (h : s.ph = .idle) : sequenced i start call s = .next { start s with ph := .run i 0 } := by
  simp [sequenced, h]

/-- A step of an operation with external calls is the acceptance of its request or one of its calls. -/
theorem sequenced_next {i : Instr} {start : State → State} {call : Nat → State → Out} {s u : State}
    (h : sequenced i start call s = .next u) :
    (s.ph = .idle ∧ u = { start s with ph := .run i 0 }) ∨ ∃ k, s.ph = .run i k ∧ call k s = .next u := by
  unfold sequenced at h
  split at h
  · cases h; exact .inl ⟨‹_›, rfl⟩
  · rename_i j k hp
    split at h
    · subst j; exact .inr ⟨k, hp, h⟩
    · cases h

/-- A wire command changes the device alone, and only one that is there and not rebooting. -/
theorem deviceTakes_eq (f : Dev → Dev) (s : State) :
    deviceTakes f s = .next { s with dev := if s.dev.present && !s.dev.rebooting then f s.dev else s.dev } := by
  unfold deviceTakes
  split <;> rfl

end Sys2Proof.Machine
end

