-- ==== Sys2Proof/Certificates/Slice0/Obligations.lean ====
section
/-! DEFINITION. The statements for the provers. -/

open Sys2Proof Sys2Proof.Machine

/-- From every idle state CRCCHK answers a next state with status Ok, VAL and CRC_OK both saying whether the division of the 24-bit word (raw value above, checksum below) ends at zero; the datapath holds no value and every other field is as before. (R110, R112, R34) -/
def Obligations.CrcchkReturnsDivisionVerdict : Prop :=
  ∀ (s : State) (raw : Raw16) (crc : Byte), s.ph = .idle →
    exec (.crcchk raw crc) s =
      .next { killDatapath s with
        ph := .idle, status := some .ok, val := some (.bool (crcDivide (raw ++ crc) == 0)),
        crcOk := some (crcDivide (raw ++ crc) == 0) }

/-- For every working register and every i from 0 to 15: where bit 23 - i is set the iteration XORs 0x988000 shifted right by i, where it is clear the register is unchanged; afterwards bit 23 - i is clear, and every bit above 23 - i or below 15 - i is as before. The whole division is the sixteen iterations in increasing order. (R111) -/
def Obligations.CrcIterationClearsTestedBit : Prop :=
  ∀ (w : W24) (i : Nat), i ≤ 15 →
    (w.getLsbD (23 - i) = true → crcIter w i = w ^^^ ((0x988000 : W24) >>> i)) ∧
    (w.getLsbD (23 - i) = false → crcIter w i = w) ∧
    (crcIter w i).getLsbD (23 - i) = false ∧
    (∀ j, 23 - i < j ∨ j < 15 - i → (crcIter w i).getLsbD j = w.getLsbD j) ∧
    crcDivide w =
      [0, 1, 2, 3, 4, 5, 6, 7, 8, 9, 10, 11, 12, 13, 14, 15].foldl crcIter w

/-- For every 16-bit value and every checksum byte the validator answers true exactly when the checksum equals crc8 of the value, so that one of the 256 checksum bytes is valid for each value. (R114) -/
def Obligations.CrcValidExactlyForCrc8 : Prop :=
  ∀ (v : Raw16) (c : Byte), isCrcValid v c = (c == crc8 v)

/-- For every 16-bit value v: crc8 v is accepted, and crc8 v with any one of its eight bits flipped is rejected. The first words are R115 (a), the second R115 (b). (R115) -/
def Obligations.CrcDetectsChecksumBitFlip : Prop :=
  ∀ (v : Raw16) (k : Fin 8),
    isCrcValid v (crc8 v) = true ∧ isCrcValid v (crc8 v ^^^ ((1 : Byte) <<< k.val)) = false

/-- For all 65536 values the byte-serial form (XOR a byte in, eight shifts with 0x31) equals the low byte left by the sixteen-iteration division of the value with a zero checksum. (R114) -/
def Obligations.CrcByteSerialFormAgrees : Prop :=
  ∀ v : Raw16, crc8Serial v = crc8 v

/-- From every idle state with the default rounding, CVTT answers a next state with status Ok and VAL the binary32 nearest the exact quotient; no other field but the dead datapath changes. (R131, R139) -/
def Obligations.CvttRoundsExactQuotient : Prop :=
  ∀ (s : State) (raw : Raw16), s.ph = .idle → s.cfg.round = .rne32 →
    exec (.cvtt raw) s =
      .next { killDatapath s with
        ph := .idle, status := some .ok,
        val := some (.f32 (rne32 (((4393 * (raw.toNat : ℤ) - 76759040 : ℤ) : ℚ) / 1638400))) }

/-- From every idle state, under every rounding parameter, CVTH answers a next state with status Ok and VAL a finite binary32 whose exact value is (125 raw - 393216) / 65536; no other field but the dead datapath changes. (R132) -/
def Obligations.CvthIsExact : Prop :=
  ∀ (s : State) (raw : Raw16), s.ph = .idle →
    ∃ f : F32, f32Finite f = true ∧ f32Val f = ((125 * (raw.toNat : ℤ) - 393216 : ℤ) : ℚ) / 65536 ∧
      exec (.cvth raw) s =
        .next { killDatapath s with ph := .idle, status := some .ok, val := some (.f32 f) }

/-- From every idle state with the default rounding, C2F of a finite operand answers a next state with status Ok and VAL the binary32 nearest nine fifths of the operand plus 32; no other field but the dead datapath changes. (R133, R139) -/
def Obligations.C2fRoundsExactValue : Prop :=
  ∀ (s : State) (c : F32), s.ph = .idle → s.cfg.round = .rne32 → f32Finite c = true →
    exec (.c2f c) s =
      .next { killDatapath s with
        ph := .idle, status := some .ok, val := some (.f32 (rne32 ((9 * f32Val c + 160) / 5))) }

/-- From every idle state with the default rounding, CMPRH of finite operands answers a next state with status Ok and VAL the binary32 nearest h + (25 - t) * (-3/20), for every pair of finite operands and without clamping to any range; no other field but the dead datapath changes. (R134, R138, R139) -/
def Obligations.CmprhRoundsExactValue : Prop :=
  ∀ (s : State) (t h : F32), s.ph = .idle → s.cfg.round = .rne32 → f32Finite t = true → f32Finite h = true →
    exec (.cmprh t h) s =
      .next { killDatapath s with
        ph := .idle, status := some .ok,
        val := some (.f32 (rne32 ((20 * f32Val h + 3 * f32Val t - 75) / 20))) }

/-- From every idle state, C2F and CMPRH with a NaN or infinite operand, PPRES outside its temperature domain and DEWPT outside its domain answer a next state with status Ok and VAL some binary32 (any value: the draw is the model's free value, log entry 6); nothing else changes but the dead datapath and the draw counter. (R137, R144, R145) -/
def Obligations.ConversionsOutsideDomainDeliverSomeValue : Prop :=
  ∀ (s : State) (i : Instr), s.ph = .idle →
    ((∃ c, i = .c2f c ∧ f32Finite c = false) ∨
      (∃ t h, i = .cmprh t h ∧ (f32Finite t && f32Finite h) = false) ∨
      (∃ t, i = .ppres t ∧ tempDomain t = false) ∨
      (∃ t h, i = .dewpt t h ∧ (tempDomain t && humidityDomain h) = false)) →
    ∃ v : F32, exec i s =
      .next { killDatapath s with
        ph := .idle, status := some .ok, val := some (.f32 v), seq := s.seq + 1 }

/-- From every idle state: PPRES of a finite temperature between -46.85 and 128.87 answers a next state with status Ok and VAL NUM.ppres of it; DEWPT of such a temperature and a finite humidity above 0 and at most 200 one with VAL NUM.dewpt of both; no other field but the dead datapath changes. (R135, R136, R142, R143) -/
def Obligations.PpresDewptDeliverNumericsFields : Prop :=
  ∀ (s : State) (t h : F32), s.ph = .idle → f32Finite t = true →
    -(4685 / 100) ≤ f32Val t → f32Val t ≤ 12887 / 100 →
    exec (.ppres t) s =
        .next { killDatapath s with ph := .idle, status := some .ok, val := some (.f32 (Config.numPpres t)) } ∧
    (f32Finite h = true → 0 < f32Val h → f32Val h ≤ 200 →
      exec (.dewpt t h) s =
        .next { killDatapath s with ph := .idle, status := some .ok, val := some (.f32 (Config.numDewpt t h)) })

/-- From every idle state whose rounding parameter names another build, CVTT of every operand and C2F and CMPRH of finite operands answer a next state with status Ok and VAL that build's function of the operands (a free value, log entry 7); no other field but the dead datapath changes. (R139, R6) -/
def Obligations.OtherBuildRoundingDelivers : Prop :=
  ∀ (s : State) (raw : Raw16) (c t h : F32), s.ph = .idle → s.cfg.round = .build →
    f32Finite c = true → f32Finite t = true → f32Finite h = true →
    let done (v : F32) : Out :=
      .next { killDatapath s with ph := .idle, status := some .ok, val := some (.f32 v) }
    exec (.cvtt raw) s = done (Config.buildCvtt raw) ∧ exec (.c2f c) s = done (Config.buildC2f c) ∧
      exec (.cmprh t h) s = done (Config.buildCmprh t h)

/-- For every rational q below the overflow bound in size, rne32 q is finite, no finite binary32 is nearer to q, and where another finite value is equally near the last bit of rne32 q is 0. From the bound on the result is the infinity of q's sign. Zero gives +0.0. (R11, R139) -/
def Obligations.Rne32IsNearestTiesToEven : Prop :=
  (∀ q : ℚ, |q| < 2 ^ 128 - 2 ^ 103 →
      f32Finite (rne32 q) = true ∧
      ∀ f : F32, f32Finite f = true →
        |f32Val (rne32 q) - q| ≤ |f32Val f - q| ∧
        (|f32Val (rne32 q) - q| = |f32Val f - q| → f32Val f ≠ f32Val (rne32 q) →
          (rne32 q).getLsbD 0 = false)) ∧
    (∀ q : ℚ, 2 ^ 128 - 2 ^ 103 ≤ q → rne32 q = 0x7F800000#32 ∧ rne32 (-q) = 0xFF800000#32) ∧
    rne32 0 = 0#32

/-- For every finite binary32 other than -0.0, rne32 of its exact value is the number itself. (R11, R87) -/
def Obligations.Rne32FixesFiniteValues : Prop :=
  ∀ f : F32, f32Finite f = true → f ≠ 0x80000000#32 → rne32 (f32Val f) = f

/-- For all non-negative tolerances under which the law of R143 holds of NUM.ppres and NUM.dewpt, every idle state and all operands in the domain: PPRES completes with status Ok and a VAL whose distance from PP(t) is at most rtol * PP(t), DEWPT completes with status Ok and a VAL whose distance from DP(t, h) is at most atol_dp, and where h is 100 that VAL is within atol_dp of t itself, because DP(x, 100) = x. Each value is finite unless its tolerance is above 2^64; for such a tolerance the number read from a NaN or an infinity counts, which is the model's choice (log entry 22). (R135, R136, R141, R142, R143, R6) -/
def Obligations.NumericsLawBoundsDeliveredValues : Prop :=
  ∀ (rtol atolDp : NNRat) (s : State) (t h : F32) (pp dp : ℝ),
    NumericsLaw Config.numPpres Config.numDewpt rtol atolDp → s.ph = .idle →
    tempDomain t = true → humidityDomain h = true →
    IsPP (f32Val t : ℝ) pp → IsDP (f32Val t : ℝ) (f32Val h : ℝ) dp →
    ∃ p d : F32,
      exec (.ppres t) s =
        .next { killDatapath s with ph := .idle, status := some .ok, val := some (.f32 p) } ∧
      exec (.dewpt t h) s =
        .next { killDatapath s with ph := .idle, status := some .ok, val := some (.f32 d) } ∧
      |(f32Val p : ℝ) - pp| ≤ ((rtol : ℚ) : ℝ) * pp ∧ |(f32Val d : ℝ) - dp| ≤ ((atolDp : ℚ) : ℝ) ∧
      (f32Val h = 100 → |(f32Val d : ℝ) - (f32Val t : ℝ)| ≤ ((atolDp : ℚ) : ℝ)) ∧
      (f32Finite p = true ∨ 2 ^ 64 < rtol) ∧ (f32Finite d = true ∨ 2 ^ 64 < atolDp)

/-- For each of the seven pure operations and every idle state the operation answers a next idle state with status Ok and a value; handle, configuration, trace, host queue, wire, link, answers, device and legacy outputs are as before, and CRC_OK is as before unless the operation is CRCCHK. That the legacy outputs stay between two measurements is the model's choice (log entry 9). (R33, R130, R34, R274) -/
def Obligations.PureOperationsTouchNothingElse : Prop :=
  ∀ (i : Instr) (s : State), isPure i = true → s.ph = .idle →
    ∃ t, exec i s = .next t ∧ t.ph = .idle ∧ t.status = some .ok ∧ t.val ≠ none ∧ DatapathDead t ∧
      t.bh = s.bh ∧ t.cfg = s.cfg ∧ t.trace = s.trace ∧ t.host = s.host ∧ t.wire = s.wire ∧ t.link = s.link ∧
      t.answers = s.answers ∧ t.dev = s.dev ∧ t.legacyRaw = s.legacyRaw ∧ t.legacyEng = s.legacyEng ∧
      ((∀ raw crc, i ≠ .crcchk raw crc) → t.crcOk = s.crcOk)

/-- For every operation with external calls and every idle state, exec answers the state with PH = Run(op, 0), the command byte of a measurement, the resolution operand of SETRES or the handle of INIT written, and nothing else changed: no call is made yet. That acceptance is a step of its own and leaves STATUS and VAL alone is the model's reading (log entries 5 and 11). This is where the request is accepted, not where the operation completes. (R32, R24, R29, R211) -/
def Obligations.RequestAcceptedAtIdle : Prop :=
  ∀ (i : Instr) (s : State), isBusOp i = true → s.ph = .idle →
    exec i s = .next { accepted i s with ph := .run i 0 }

/-- In every state whose PH is Run(j, k), every host operation other than j is refused as busy. The model reads exec of j itself there as j's own next call (log entry 5). (R254, R35) -/
def Obligations.RequestWhileBusyRefused : Prop :=
  ∀ (i j : Instr) (k : Nat) (s : State), i.isHost = true → s.ph = .run j k → i ≠ j →
    exec i s = .refused .busy

/-- In every state with PH = Run(i, k): if the step answers a next state t, then with any other list of pending host requests the step answers t with that list instead. That requests wait in a list is the model's choice (log entry 3). (R254, R70) -/
def Obligations.PendingRequestDoesNotDisturb : Prop :=
  ∀ (s t : State) (i : Instr) (k : Nat) (h : List HostRequest), s.ph = .run i k →
    step s = .next t → step { s with host := h } = .next { t with host := h }

/-- For every state that meets the invariant and every step to a next state: PH is unchanged (idle with a pure operation or nothing to do, or the device took a frame of another master, which is the model's choice, log entry 3), or a request was accepted at IDLE, or the running operation moved on by one call, or it ended. That an operation ends in the step of its last call, so that PH never rests at Run(op, n) after n calls, is the model's choice (log entry 23). (R32, R31) -/
def Obligations.PhaseAdvancesInThreeWays : Prop :=
  ∀ s t : State, Invariant s → step s = .next t →
    (t.ph = s.ph ∧ (s.ph = .idle ∨ s.wire ≠ [])) ∨
    (s.ph = .idle ∧ ∃ i, isBusOp i = true ∧ t.ph = .run i 0) ∨
    ∃ i k, s.ph = .run i k ∧ (t.ph = .run i (k + 1) ∨ t.ph = .idle)

/-- For every state that meets the invariant and has PH = Run(i, k), a next state of exec i has exactly one more event in its trace, and that event is call k of the call list of i with the arguments the list gives. (R161, R181, R184, R196, R198, R211, R218, R70) -/
def Obligations.CallsFollowCallList : Prop :=
  ∀ (s t : State) (i : Instr) (k : Nat), Invariant s → s.ph = .run i k → exec i s = .next t →
    ∃ e, t.trace = s.trace ++ [e] ∧ CallIs i k s e

/-- For every running operation whose next call is a transaction other than INIT's probe, with a written handle and an answer that is a failure: exec answers a next state that is idle with STATUS = status_of the result, no value, a dead datapath, exactly that call added to the trace, and CRC_OK and the handle as before. (R232, R235, R240, R168, R200, R220) -/
def Obligations.FailedGateEndsOperation : Prop :=
  ∀ (i : Instr) (k : Nat) (s s' : State) (x : Txn) (b : BusId) (r : BusResult) (bs : List Byte),
    RegistersLive s → s.ph = .run i k → callTxn i k s = some x →
    (∀ b' dp cp dpu cpu, ¬ (i = .init b' dp cp dpu cpu ∧ k = 2)) →
    s.bh = some b → askExec x s = .ok (r, bs, s') → r ≠ .ok →
    ∃ t, exec i s = .next t ∧ t.ph = .idle ∧ t.status = some (statusOf r) ∧ t.val = none ∧ DatapathDead t ∧
      t.trace = s.trace ++ [.busExec b x 1000 r bs] ∧ t.crcOk = s.crcOk ∧ t.bh = s.bh

/-- In every state whose running operation is about to make a transaction while BH is unwritten, exec stops with the fault UnwrittenHandle. (R280, R23) -/
def Obligations.UnwrittenHandleFault : Prop :=
  ∀ (i : Instr) (k : Nat) (s : State) (x : Txn), RegistersLive s → s.ph = .run i k →
    callTxn i k s = some x → s.bh = none → exec i s = .fault .unwrittenHandle

/-- A frame of another master is taken first and run with the frame removed; otherwise a running operation is run as it is; otherwise at IDLE the host's next request is run with the request removed; with nothing to run the state stays. R12 and R32 give the running operation's next call and the acceptance of a request at IDLE; that a foreign frame is taken before the block's next call, that requests and frames wait in lists, and that a machine with nothing to run stays as it is, is the model's choice (log entry 3, unsafe). (R12, R32) -/
def Obligations.StepRunsDecodedInstruction : Prop :=
  (∀ (s : State) bs rest i, s.wire = bs :: rest → decode (.wire bs) = .ok i →
      step s = exec i { s with wire := rest }) ∧
    (∀ (s : State) i k, s.wire = [] → s.ph = .run i k → step s = exec i s) ∧
    (∀ (s : State) r rest i, s.wire = [] → s.ph = .idle → s.host = r :: rest → decode (.host r) = .ok i →
      step s = exec i { s with host := rest }) ∧
    (∀ s : State, s.wire = [] → s.ph = .idle → s.host = [] → step s = .next s)

/-- At IDLE a request with selector 15 and any operands is refused as a reserved selector; a wire frame whose first byte is none of the seven command bytes decodes to the error undefinedCommand, whatever follows it. (R98, R97) -/
def Obligations.ReservedEncodingsRejected : Prop :=
  (∀ (s : State) p rest, s.wire = [] → s.ph = .idle → s.host = { op := 15, ports := p } :: rest →
      step s = .refused .reservedSelector) ∧
    ∀ (c : Byte) (bs : List Byte), c ∉ commandBytes → decode (.wire (c :: bs)) = .error .undefinedCommand

/-- From every state that meets the invariant, with a running operation, a written handle, no frame of another master pending, and a transport that is the responder, or the oracle with any decided answers that are of the right type for the calls that are left (as many as are decided, none included, with a free answer after the last), at most five steps lead to an idle state. That every call is answered in the step that makes it is the model's choice (log entry 20, unsafe for liveness), and so is where the answers stand (log entry 2). (R32, R251, R58, R14) -/
def Obligations.EveryOperationEnds : Prop :=
  ∀ (s : State) (i : Instr) (k : Nat), Invariant s → s.ph = .run i k → s.bh ≠ none → s.wire = [] →
    (s.link = .responder ∨ AnswersFit (callsLeft i k) s.answers) →
    ∃ n t, n ≤ 5 ∧ (Host.Core.run Sys2Proof.core n s : Out) = .next t ∧ t.ph = .idle

/-- For every state, every operation i with external calls in progress at PH = Run(i, k) and every pure operation i requested at IDLE: if exec i answers an idle next state, its status is in the row the table gives for i under the configured checksum policy. R233 marks this as its own inference from the call lists. (R233) -/
def Obligations.StatusWithinOperationsRow : Prop :=
  ∀ (i : Instr) (s t : State), i.isHost = true → exec i s = .next t → t.ph = .idle →
    ∃ st, t.status = some st ∧ mayEndWith s.cfg.crcPolicy i st = true

/-- For every instruction and every next state of exec: configuration, host queue, wire and link are unchanged; the handle is unchanged but for INIT; CRC_OK is unchanged but for CRCCHK, RDT and RDH; the legacy outputs are unchanged but for RDT and RDH; the trace has at most one event more; a wire command changes the device alone. That the legacy outputs stay between two measurements is the model's choice (log entry 9, unsafe), and that a wire command acts on the device in State and on nothing else is too (log entry 15). (R22, R34, R270, R71) -/
def Obligations.ExecFrame : Prop :=
  ∀ (i : Instr) (s t : State), exec i s = .next t →
    t.cfg = s.cfg ∧ t.host = s.host ∧ t.wire = s.wire ∧ t.link = s.link ∧
    ((∀ b dp cp dpu cpu, i ≠ .init b dp cp dpu cpu) → t.bh = s.bh) ∧
    (i ≠ .rdt → i ≠ .rdh → (∀ raw crc, i ≠ .crcchk raw crc) → t.crcOk = s.crcOk) ∧
    (i ≠ .rdt → i ≠ .rdh → t.legacyRaw = s.legacyRaw ∧ t.legacyEng = s.legacyEng) ∧
    (t.trace = s.trace ∨ ∃ e, t.trace = s.trace ++ [e]) ∧
    (i.isHost = false → t = { s with dev := t.dev })

/-- Ending an operation sets STATUS, VAL and PH = IDLE and leaves every datapath register without a value; handle, flag, legacy outputs (log entry 9), configuration, trace, queues and device stay. (R240, R241, R20) -/
def Obligations.EndOfOperationWritesResponse : Prop :=
  ∀ (s : State) (st : Status) (v : Value),
    raise st s = .next { s with
      status := some st, val := none, ph := .idle, cmd := none, msb := none, lsb := none, cks := none, raw := none,
      w := none, it := none, regv := none, resv := none, merge := none } ∧
    returnOk (some v) s = .next { s with
      status := some .ok, val := some v, ph := .idle, cmd := none, msb := none, lsb := none, cks := none, raw := none,
      w := none, it := none, regv := none, resv := none, merge := none }

/-- For RDT with 0xF3 and RDH with 0xF5 at Run(op, 0): the call is a write of exactly the command byte; on Ok the phase moves to Run(op, 1) and nothing else changes; on a failure the operation ends with status_of it and no Delay is made. (R161, R162, R168) -/
def Obligations.MeasurementTriggers : Prop :=
  ∀ (i : Instr) (c : Byte) conv (s s' : State) (b : BusId) (r : BusResult) (bs : List Byte),
    IsMeasurement i c conv → s.ph = .run i 0 → s.cmd = some c → s.bh = some b →
    askExec [.start, .addr 0x40 .write, .wbyte c, .stop] s = .ok (r, bs, s') →
    let u := record (.busExec b [.start, .addr 0x40 .write, .wbyte c, .stop] 1000 r bs) s'
    (r = .ok → exec i s = .next { u with ph := .run i 1 }) ∧
    (r ≠ .ok → exec i s = .next (legacyView conv (statusOf r) none (finish (statusOf r) none u)))

/-- At Run(op, 1) of RDT or RDH the call is Delay(50), whatever the state: the phase moves to Run(op, 2), the event is added, 50 ms pass at the device, and nothing else changes. (R162, R250) -/
def Obligations.MeasurementWaits : Prop :=
  ∀ (i : Instr) (c : Byte) conv (s : State), IsMeasurement i c conv → s.ph = .run i 1 →
    exec i s = .next { s with
      ph := .run i 2, trace := s.trace ++ [.delay 50], dev := devDelay 50 s.dev }

/-- At Run(op, 2) with an answered three-byte read: a frame whose checksum passes over the unmasked 16 bits ends the operation with status Ok, VAL the value with bits 1:0 cleared and CRC_OK = 1; a frame that fails it moves to Run(op, 3) with MSB, LSB, CKS, RAW, W, IT and CRC_OK = 0 written. This is where RDT and RDH complete. (R161, R163, R165) -/
def Obligations.MeasurementReadsAndChecks : Prop :=
  ∀ (i : Instr) (c : Byte) conv (s s' : State) (b : BusId) (b0 b1 b2 : Byte),
    IsMeasurement i c conv → s.ph = .run i 2 → s.bh = some b →
    askExec [.start, .addr 0x40 .read, .rbyte .ack, .rbyte .ack, .rbyte .nack, .stop] s = .ok (.ok, [b0, b1, b2], s') →
    let u := record
      (.busExec b [.start, .addr 0x40 .read, .rbyte .ack, .rbyte .ack, .rbyte .nack, .stop] 1000 .ok [b0, b1, b2]) s'
    (isCrcValid (b0 ++ b1) b2 = true →
      exec i s = .next (legacyView conv .ok (some ((b0 ++ b1) &&& 0xFFFC))
        { killDatapath u with
          ph := .idle, status := some .ok, val := some (.u16 ((b0 ++ b1) &&& 0xFFFC)), crcOk := some true })) ∧
    (isCrcValid (b0 ++ b1) b2 = false →
      exec i s = .next { u with
        ph := .run i 3, msb := some b0, lsb := some b1, cks := some b2, raw := some (b0 ++ b1),
        w := some (crcDivide (b0 ++ b1 ++ b2)), it := some 16, crcOk := some false })

/-- At Run(op, 3) of RDT or RDH with RAW and CKS written: Diag(CrcMismatch, RAW, CKS) is added to the trace; under enforce the operation ends with ChecksumMismatch and no value, under warn_and_proceed with Ok and the masked value; CRC_OK is as before. (R164, R234, R256) -/
def Obligations.MismatchPolicyDecides : Prop :=
  ∀ (i : Instr) (c : Byte) conv (s : State) (raw : Raw16) (cks : Byte),
    IsMeasurement i c conv → s.ph = .run i 3 → s.raw = some raw → s.cks = some cks →
    let u := { s with trace := s.trace ++ [.diag .crcMismatch raw cks] }
    (s.cfg.crcPolicy = .enforce →
      exec i s = .next (legacyView conv .checksumMismatch none (finish .checksumMismatch none u))) ∧
    (s.cfg.crcPolicy = .warnAndProceed →
      exec i s = .next (legacyView conv .ok (some (raw &&& 0xFFFC)) (finish .ok (some (.u16 (raw &&& 0xFFFC))) u)))

/-- For every state with the policy enforce: if a step of RDT or RDH ends with status Ok, the event it added to the trace is a read of three bytes whose checksum passes, VAL is their value with bits 1:0 cleared, and CRC_OK = 1. (R40, R164) -/
def Obligations.EnforcedValueHasPassedCheck : Prop :=
  ∀ (i : Instr) (s t : State), i = .rdt ∨ i = .rdh → s.cfg.crcPolicy = .enforce →
    exec i s = .next t → t.ph = .idle → t.status = some .ok →
    t.crcOk = some true ∧
    ∃ b b0 b1 b2, t.trace = s.trace ++ [.busExec b (tRead 3) 1000 .ok [b0, b1, b2]] ∧
      isCrcValid (b0 ++ b1) b2 = true ∧ t.val = some (.u16 ((b0 ++ b1) &&& 0xFFFC))

/-- For RDT and RDH, from every idle state with that request next, the handle written and a transport that answers Ok and then a valid frame: four steps give status Ok, VAL the masked value, CRC_OK = 1, and a trace longer by exactly the trigger, Delay(50) and the read; everything else is as before but for the request and answers used up and the time passed at the device. The lists of requests and answers it runs on are the model's choice (log entries 2 and 3). (R161, R166, R167, R165, R71) -/
def Obligations.MeasurementFromRequestToValue : Prop :=
  ∀ (i : Instr) (c : Byte) conv (s : State) (q : HostRequest) rest more (b : BusId) (b0 b1 b2 : Byte),
    IsMeasurement i c conv → s.ph = .idle → s.wire = [] → s.host = q :: rest → decode (.host q) = .ok i →
    s.bh = some b → s.link = .oracle → s.answers = .exec .ok [] :: .exec .ok [b0, b1, b2] :: more →
    isCrcValid (b0 ++ b1) b2 = true →
    (Host.Core.run Sys2Proof.core 4 s : Out) = .next (legacyView conv .ok (some ((b0 ++ b1) &&& 0xFFFC))
      { killDatapath s with
        host := rest, answers := more, status := some .ok, val := some (.u16 ((b0 ++ b1) &&& 0xFFFC)),
        crcOk := some true, dev := devDelay 50 s.dev,
        trace := s.trace ++
          [.busExec b [.start, .addr 0x40 .write, .wbyte c, .stop] 1000 .ok [], .delay 50,
           .busExec b [.start, .addr 0x40 .read, .rbyte .ack, .rbyte .ack, .rbyte .nack, .stop] 1000 .ok
             [b0, b1, b2]] })

/-- When RDT or RDH ends: with the view on, legacy_raw is the value where the status is Ok and 0 otherwise, and legacy_eng is -999.0 where legacy_raw is 0 and the conversion of it otherwise; with the view off both outputs stay; and switching the view on changes nothing but these two outputs. That the outputs stay with the view off is the model's choice (log entry 9, unsafe). (R170) -/
def Obligations.LegacyViewShowsSentinels : Prop :=
  ∀ (i : Instr) (c : Byte) conv (s t : State), IsMeasurement i c conv →
    exec i { s with cfg := { s.cfg with legacyView := false } } = .next t → t.ph = .idle →
    t.legacyRaw = s.legacyRaw ∧ t.legacyEng = s.legacyEng ∧
    ∃ lr : Raw16,
      (t.status = some .ok → t.val = some (.u16 lr)) ∧ (t.status ≠ some .ok → lr = 0) ∧
      exec i { s with cfg := { s.cfg with legacyView := true } } =
        .next { t with
          cfg := { t.cfg with legacyView := true }, legacyRaw := some lr,
          legacyEng := some (if lr = 0 then 0xC479C000#32 else conv s.cfg.round lr) }

/-- At Run(RDUR, 0) the call is a write of 0xE7 alone: on Ok the phase moves to Run(RDUR, 1). At Run(RDUR, 1) the call is a read of one byte answered with NACK: on Ok the operation completes with status Ok and VAL that byte, all eight bits. A failure of either ends the operation with status_of it. (R181) -/
def Obligations.RdurReadsOneByte : Prop :=
  ∀ (s s' : State) (b : BusId) (r : BusResult) (bs : List Byte), s.bh = some b →
    (s.ph = .run .rdur 0 → askExec [.start, .addr 0x40 .write, .wbyte 0xE7, .stop] s = .ok (r, bs, s') →
      let u := record (.busExec b [.start, .addr 0x40 .write, .wbyte 0xE7, .stop] 1000 r bs) s'
      exec .rdur s = .next (if r = .ok then { u with ph := .run .rdur 1 } else finish (statusOf r) none u)) ∧
    (s.ph = .run .rdur 1 → askExec [.start, .addr 0x40 .read, .rbyte .nack, .stop] s = .ok (r, bs, s') →
      let u := record (.busExec b [.start, .addr 0x40 .read, .rbyte .nack, .stop] 1000 r bs) s'
      (∀ v, r = .ok → bs = [v] → exec .rdur s = .next (finish .ok (some (.u8 v)) u)) ∧
      (r ≠ .ok → exec .rdur s = .next (finish (statusOf r) none u)))

/-- At Run(WRUR v, 0) the call is the one transaction [0xE6, v]; on Ok the operation completes with status Ok and no value, on a failure it ends with status_of it; there is no other call, no delay and no read-back. (R184) -/
def Obligations.WrurWritesWholeByte : Prop :=
  ∀ (s s' : State) (v : Byte) (b : BusId) (r : BusResult) (bs : List Byte),
    s.bh = some b → s.ph = .run (.wrur v) 0 →
    askExec [.start, .addr 0x40 .write, .wbyte 0xE6, .wbyte v, .stop] s = .ok (r, bs, s') →
    let u := record (.busExec b [.start, .addr 0x40 .write, .wbyte 0xE6, .wbyte v, .stop] 1000 r bs) s'
    exec (.wrur v) s = .next (if r = .ok then finish .ok none u else finish (statusOf r) none u)

/-- At Run(GETRES, 0) and Run(GETRES, 1) the calls and gates are those of RDUR; on a read byte v the operation completes with status Ok and VAL v AND 0x81. (R196) -/
def Obligations.GetresReturnsResolutionBits : Prop :=
  ∀ (s s' : State) (b : BusId) (r : BusResult) (bs : List Byte), s.bh = some b →
    (s.ph = .run .getres 0 → askExec [.start, .addr 0x40 .write, .wbyte 0xE7, .stop] s = .ok (r, bs, s') →
      let u := record (.busExec b [.start, .addr 0x40 .write, .wbyte 0xE7, .stop] 1000 r bs) s'
      exec .getres s = .next (if r = .ok then { u with ph := .run .getres 1 } else finish (statusOf r) none u)) ∧
    (s.ph = .run .getres 1 → askExec [.start, .addr 0x40 .read, .rbyte .nack, .stop] s = .ok (r, bs, s') →
      let u := record (.busExec b [.start, .addr 0x40 .read, .rbyte .nack, .stop] 1000 r bs) s'
      (∀ v, r = .ok → bs = [v] → exec .getres s = .next (finish .ok (some (.u8 (v &&& 0x81))) u)) ∧
      (r ≠ .ok → exec .getres s = .next (finish (statusOf r) none u)))

/-- From every idle state with a SETRES request next, the handle written and a transport that answers Ok, then the register byte r, then any result: four steps end the operation with the status of the write, and the trace is longer by exactly the select, the read and a write of [0xE6, (r AND 0x7E) OR (operand AND 0x81)], even where that byte equals r. The lists of requests and answers it runs on are the model's choice (log entries 2 and 3). (R198, R199) -/
def Obligations.SetresFromRequestToMergedWrite : Prop :=
  ∀ (s : State) (q : HostRequest) rest more (b : BusId) (v x : Byte) (r : BusResult),
    s.ph = .idle → s.wire = [] → s.host = q :: rest → decode (.host q) = .ok (.setres x) → s.bh = some b →
    s.link = .oracle → s.answers = .exec .ok [] :: .exec .ok [v] :: .exec r [] :: more →
    (Host.Core.run Sys2Proof.core 4 s : Out) = .next { killDatapath s with
      host := rest, answers := more, status := some (statusOf r), val := none,
      trace := s.trace ++
        [.busExec b [.start, .addr 0x40 .write, .wbyte 0xE7, .stop] 1000 .ok [],
         .busExec b [.start, .addr 0x40 .read, .rbyte .nack, .stop] 1000 .ok [v],
         .busExec b [.start, .addr 0x40 .write, .wbyte 0xE6, .wbyte ((v &&& 0x7E) ||| (x &&& 0x81)), .stop] 1000 r []] }

/-- At Run(SETRES x, 1) with a read byte v the phase moves to Run(SETRES x, 2) with REGV = v and MERGE = (v AND 0x7E) OR (x AND 0x81); at Run(SETRES x, 2) the merged byte is written and on Ok the operation completes with status Ok and no value. (R198, R29) -/
def Obligations.SetresCallsEachComplete : Prop :=
  ∀ (s s' : State) (x : Byte) (b : BusId) (bs : List Byte), s.bh = some b →
    (∀ v, s.ph = .run (.setres x) 1 → s.resv = some x → bs = [v] →
      askExec [.start, .addr 0x40 .read, .rbyte .nack, .stop] s = .ok (.ok, bs, s') →
      exec (.setres x) s = .next
        { record (.busExec b [.start, .addr 0x40 .read, .rbyte .nack, .stop] 1000 .ok bs) s' with
          ph := .run (.setres x) 2, regv := some v, merge := some ((v &&& 0x7E) ||| (x &&& 0x81)) }) ∧
    (∀ m, s.ph = .run (.setres x) 2 → s.merge = some m →
      askExec [.start, .addr 0x40 .write, .wbyte 0xE6, .wbyte m, .stop] s = .ok (.ok, bs, s') →
      exec (.setres x) s = .next (finish .ok none
        (record (.busExec b [.start, .addr 0x40 .write, .wbyte 0xE6, .wbyte m, .stop] 1000 .ok bs) s')))

/-- For every register byte and every operand the merge is (REGV AND 0x7E) OR (RESV AND 0x81): bit j is the operand's for j = 0 and j = 7, and the register's for j from 1 to 6. (R95) -/
def Obligations.MergePreservesReservedBits : Prop :=
  ∀ (regv resv : Byte),
    mergeRes regv resv = (regv &&& 0x7E) ||| (resv &&& 0x81) ∧
    ∀ j : Fin 8, (mergeRes regv resv).getLsbD j.val =
      if j.val = 0 ∨ j.val = 7 then resv.getLsbD j.val else regv.getLsbD j.val

/-- From every idle state with an INIT request next and a transport that answers every call with success: six steps end with status Ok, no value, BH the operand, and a trace longer by exactly BusConfig (the operands, master mode, 100 kHz), BusInstall, the probe, the reset command and Delay(15). The lists of requests and answers it runs on are the model's choice (log entries 2 and 3). (R211, R210, R252) -/
def Obligations.InitFromRequestToReady : Prop :=
  ∀ (s : State) (q : HostRequest) rest more (b : BusId) (dp cp : Pin) (dpu cpu : Bool),
    s.ph = .idle → s.wire = [] → s.host = q :: rest → decode (.host q) = .ok (.init b dp cp dpu cpu) →
    s.link = .oracle → s.answers = .ack true :: .ack true :: .exec .ok [] :: .exec .ok [] :: more →
    (Host.Core.run Sys2Proof.core 6 s : Out) = .next { killDatapath s with
      bh := some b, host := rest, answers := more, status := some .ok, val := none, dev := devDelay 15 s.dev,
      trace := s.trace ++
        [.busConfig b dp cp dpu cpu true 100000 true, .busInstall b true,
         .busExec b [.start, .addr 0x40 .write, .stop] 1000 .ok [],
         .busExec b [.start, .addr 0x40 .write, .wbyte 0xFE, .stop] 1000 .ok [], .delay 15] }

/-- At Run(INIT, 0) a failed configuration ends INIT with ConfigurationError, at Run(INIT, 1) a failed activation with InstallError, at Run(INIT, 2) every probe result other than Ok with NotFoundError; success moves to the next call; in every case exactly that one call is added to the trace, so that no later step was attempted. (R212, R213, R214) -/
def Obligations.InitGatesMapToTheirStatus : Prop :=
  ∀ (s s' : State) (b b' : BusId) (dp cp : Pin) (dpu cpu ok : Bool) (r : BusResult) (bs : List Byte),
    let i : Instr := .init b dp cp dpu cpu
    (s.ph = .run i 0 → askAck (fun d => (true, d)) s = .ok (ok, s') →
      let u := record (.busConfig b dp cp dpu cpu true 100000 ok) s'
      exec i s = .next (if ok then { u with ph := .run i 1 } else finish .configurationError none u)) ∧
    (s.ph = .run i 1 → askAck devInstall s = .ok (ok, s') →
      let u := record (.busInstall b ok) s'
      exec i s = .next (if ok then { u with ph := .run i 2 } else finish .installError none u)) ∧
    (s.ph = .run i 2 → s.bh = some b' → askExec [.start, .addr 0x40 .write, .stop] s = .ok (r, bs, s') →
      let u := record (.busExec b' [.start, .addr 0x40 .write, .stop] 1000 r bs) s'
      exec i s = .next (if r = .ok then { u with ph := .run i 3 } else finish .notFoundError none u))

/-- At Run(SRST, 0) and Run(INIT, 3) the call is a write of 0xFE alone: a failure ends the operation with status_of it and no Delay, Ok moves to the next call; at Run(SRST, 1) and Run(INIT, 4) the call is Delay(15) and the operation completes with status Ok and no value. (R218, R219, R215, R220) -/
def Obligations.ResetSettlesOnlyAfterSuccess : Prop :=
  ∀ (i : Instr) (k : Nat) (s s' : State) (b : BusId) (r : BusResult) (bs : List Byte),
    (i = .srst ∧ k = 0) ∨ (∃ b' dp cp dpu cpu, i = .init b' dp cp dpu cpu ∧ k = 3) →
    (s.ph = .run i k → s.bh = some b → askExec [.start, .addr 0x40 .write, .wbyte 0xFE, .stop] s = .ok (r, bs, s') →
      let u := record (.busExec b [.start, .addr 0x40 .write, .wbyte 0xFE, .stop] 1000 r bs) s'
      exec i s = .next (if r = .ok then { u with ph := .run i (k + 1) } else finish (statusOf r) none u)) ∧
    (s.ph = .run i (k + 1) →
      exec i s = .next (finish .ok none { s with
        trace := s.trace ++ [.delay 15], dev := devDelay 15 s.dev }))

/-- On a device that is present and not rebooting: the two triggers start their conversion, 0xE6 replaces the user register, 0xE7 selects it for the next read, 0xFE puts it to the default except the heater bit and begins the reboot window; nothing but the device changes. On an absent or rebooting device none of the five changes anything. That these rows act on the device in State as frames of another master, with the registers of the reference responder, and that an absent or rebooting device ignores them, is the model's choice (log entry 15, unsafe); R282 leaves the second open. (R86, R68, R53, R271, R76) -/
def Obligations.WireCommandsActOnDevice : Prop :=
  ∀ (s : State) (v : Byte),
    (s.dev.present = true → s.dev.rebooting = false →
      exec .wTrigTNh s =
        .next { s with dev := { s.dev with pend := .temperature, elapsedMs := 0, selUr := false } } ∧
      exec .wTrigHNh s =
        .next { s with dev := { s.dev with pend := .humidity, elapsedMs := 0, selUr := false } } ∧
      exec (.wWrUreg v) s = .next { s with dev := { s.dev with ur := v } } ∧
      exec .wRdUreg s = .next { s with dev := { s.dev with selUr := true } } ∧
      exec .wSrst s = .next { s with dev := { s.dev with
        ur := (s.cfg.dev.urDefault &&& ~~~s.cfg.dev.heaterMask) ||| (s.dev.ur &&& s.cfg.dev.heaterMask),
        pend := .none, selUr := false, rebooting := true, elapsedMs := 0 } }) ∧
    (s.dev.present = false ∨ s.dev.rebooting = true →
      ∀ i ∈ [Instr.wTrigTNh, .wTrigHNh, .wWrUreg v, .wRdUreg, .wSrst], exec i s = .next s)

/-- W_TRIG_T_H and W_TRIG_H_H are refused as hold mode not covered in every state: the spec has no rule for a device that receives them. (R96, R290) -/
def Obligations.HoldModeTriggersRefused : Prop :=
  ∀ s : State, exec .wTrigTH s = .refused .holdModeNotCovered ∧ exec .wTrigHH s = .refused .holdModeNotCovered

/-- With the responder behind the bus and SETRES x about to write, a frame [0xE6, v] of another master changes the register to v first, and then SETRES's write leaves the register at (r AND 0x7E) OR (x AND 0x81), r the byte read before, with status Ok: the change of the other master is lost in all eight bits, and the six preserved bits are those read before it. That the frame is taken before the block's next call, and its effect on the device in State, are the model's choice (log entries 3 and 15). (R73, R201, R284) -/
def Obligations.SetresOverwritesForeignWrite : Prop :=
  ∀ (s : State) (x v : Byte) (b : BusId), RegistersLive s → s.ph = .run (.setres x) 2 → s.bh = some b →
    s.link = .responder → s.dev.installed = true → s.dev.present = true → s.dev.rebooting = false →
    s.wire = [[0xE6, v]] →
    step s = .next { s with wire := [], dev := { s.dev with ur := v } } ∧
    ∃ r t, s.regv = some r ∧ (Host.Core.run Sys2Proof.core 2 s : Out) = .next t ∧ t.ph = .idle ∧
      t.status = some .ok ∧ t.dev = { s.dev with ur := (r &&& 0x7E) ||| (x &&& 0x81) }

/-- For every responder that is ready: with a pending conversion and 50 ms or more gone by, a three-byte read answers Ok with a frame whose checksum passes, whose masked value is the measured input with bits 1:0 cleared, and after which nothing is pending; before 50 ms, and with nothing pending, it answers TransactionFailed and the responder stays as it is. (R76, R82) -/
def Obligations.ResponderFramePassesCheck : Prop :=
  ∀ (p : DevParams) (d : Dev) (m : Raw16), d.installed = true → d.present = true → d.rebooting = false →
    ((d.pend = .temperature ∧ m = d.measT) ∨ (d.pend = .humidity ∧ m = d.measH) → 50 ≤ d.elapsedMs →
      ∃ b0 b1 b2, devRespond p (tRead 3) d = (.ok, [b0, b1, b2], { d with pend := .none }) ∧
        isCrcValid (b0 ++ b1) b2 = true ∧ (b0 ++ b1) &&& 0xFFFC#16 = m &&& 0xFFFC) ∧
    (d.pend = .none ∨ d.elapsedMs < 50 → devRespond p (tRead 3) d = (.transactionFailed, [], d))

/-- For every responder and every transaction: while it is not installed the answer is InvalidDriverState, and while it is installed but absent or rebooting it is TransactionFailed, and the responder stays as it is. When it is ready, writing [0xE6, v], then [0xE7], then reading one byte answers Ok each time and returns v, and a one-byte read of a register that is not selected answers TransactionFailed. (R53, R76) -/
def Obligations.ResponderReadsBackWrittenRegister : Prop :=
  ∀ (p : DevParams) (d : Dev) (x : Txn) (v : Byte),
    (d.installed = false → devRespond p x d = (.invalidDriverState, [], d)) ∧
    (d.installed = true → d.present = false ∨ d.rebooting = true → devRespond p x d = (.transactionFailed, [], d)) ∧
    (d.installed = true → d.present = true → d.rebooting = false →
      (∃ d1 d2, devRespond p (tWrite [0xE6, v]) d = (.ok, [], d1) ∧ devRespond p (tWrite [0xE7]) d1 = (.ok, [], d2) ∧
        devRespond p (tRead 1) d2 = (.ok, [v], d2)) ∧
      (d.selUr = false → devRespond p (tRead 1) d = (.transactionFailed, [], d)))

/-- For every parameter choice and every device: after a soft reset bit j of the user register is the old bit where the heater mask has bit j, and the default's bit elsewhere; nothing is pending, nothing is selected, and the reboot window has begun with no time gone by. A Delay of ms adds ms to the time gone by and changes nothing else but the window, which is over afterwards exactly where it was not open or 15 ms have gone by. The window and the time are those of the reference responder. (R271, R221, R76) -/
def Obligations.SoftResetKeepsOnlyHeaterBit : Prop :=
  ∀ (p : DevParams) (d : Dev) (j : Fin 8) (ms : Nat),
    ((devSoftReset p d).ur.getLsbD j.val =
      if p.heaterMask.getLsbD j.val then d.ur.getLsbD j.val else p.urDefault.getLsbD j.val) ∧
    devSoftReset p d = { d with
      ur := (devSoftReset p d).ur, pend := .none, selUr := false, rebooting := true, elapsedMs := 0 } ∧
    devDelay ms d = { d with elapsedMs := d.elapsedMs + ms, rebooting := (devDelay ms d).rebooting } ∧
    ((devDelay ms d).rebooting = false ↔ d.rebooting = false ∨ 15 ≤ d.elapsedMs + ms)

/-- With the oracle behind the bus and a BusExec: a decided answer Ok with as many bytes as the transaction reads is taken as it is, a decided failure is taken without bytes, and Ok with another number of bytes, an ok or fail meant for another call, and an outcome outside the five results are refused. With a BusConfig or a BusInstall: a decided ok or fail is taken, and any other answer is refused. Where no answer is decided some well-typed answer is given. With the responder: BusConfig is answered ok, BusInstall ok where nothing is installed and fail where it is, and a BusExec by the responder. That decided answers stand in a list, and that a free value stands for one that is not decided, is the model's choice (log entry 2). (R58, R59, R252, R76) -/
def Obligations.TransportAnswersAreTaken : Prop :=
  ∀ (s : State) (x : Txn) (r : BusResult) (bs : List Byte) (more : List Answer) (code : Nat) (ok : Bool)
    (f : Dev → Bool × Dev),
    (s.link = .oracle →
      (s.answers = .exec r bs :: more → r = .ok → bs.length = rbyteCount x →
        askExec x s = .ok (r, bs, { s with answers := more })) ∧
      (s.answers = .exec r bs :: more → r ≠ .ok → askExec x s = .ok (r, [], { s with answers := more })) ∧
      (s.answers = .exec .ok bs :: more → bs.length ≠ rbyteCount x → askExec x s = .error .illTypedAnswer) ∧
      (s.answers = .ack ok :: more ∨ s.answers = .alien code :: more → askExec x s = .error .illTypedAnswer) ∧
      (s.answers = [] → ∃ r bs, askExec x s = .ok (r, bs, { s with seq := s.seq + 1 }) ∧
        bs.length = if r = .ok then rbyteCount x else 0) ∧
      (s.answers = .ack ok :: more → askAck f s = .ok (ok, { s with answers := more })) ∧
      (s.answers = .exec r bs :: more ∨ s.answers = .alien code :: more → askAck f s = .error .illTypedAnswer) ∧
      (s.answers = [] → ∃ ok, askAck f s = .ok (ok, { s with seq := s.seq + 1 }))) ∧
    (s.link = .responder →
      askAck (fun d => (true, d)) s = .ok (true, s) ∧
      (s.dev.installed = true → askAck devInstall s = .ok (false, s)) ∧
      (s.dev.installed = false → askAck devInstall s = .ok (true, { s with dev := { s.dev with installed := true } })) ∧
      askExec x s = .ok ((devRespond s.cfg.dev x s.dev).1, (devRespond s.cfg.dev x s.dev).2.1,
        { s with dev := (devRespond s.cfg.dev x s.dev).2.2 }))

/-- For every instruction, with every operand at every value, decode of encode is the instruction, and the frame is well-formed. (R86, R90, R80) -/
def Obligations.DecodeInvertsEncode : Prop :=
  ∀ i : Instr, decode (encode i) = .ok i ∧ (encode i).wf = true

/-- Every wire frame that decodes to an instruction is exactly that instruction's encoding; every host request that decodes to an instruction has the selector of that instruction's encoding; a frame decodes exactly where it is well-formed. (R81, R86, R90, R97, R98) -/
def Obligations.DecodedFrameIsEncoded : Prop :=
  (∀ bs i, decode (.wire bs) = .ok i → encode i = .wire bs) ∧
    (∀ r i, decode (.host r) = .ok i → ∃ p, encode i = .host { op := r.op, ports := p }) ∧
    ∀ f, (∃ i, decode f = .ok i) ↔ f.wf = true

/-- Selectors 0, 3, 7, 10, 12, 13 with operands on their ports, and the command bytes 0xF3, 0xE6 0x83 and 0xFE, decode to CRCCHK, C2F, RDT, WRUR, SETRES, INIT, W_TRIG_T_NH, W_WR_UREG and W_SRST. (R86, R90) -/
def Obligations.WordsOfTheTablesDecode : Prop :=
  decode (.host { op := 0b0000, ports := { Ports.zero with u16 := 0x683A, u8 := 0x7C } }) = .ok (.crcchk 0x683A 0x7C) ∧
    decode (.host { op := 0b0011, ports := { Ports.zero with f32a := 0x42C80000 } }) = .ok (.c2f 0x42C80000) ∧
    decode (.host { op := 0b0111, ports := Ports.zero }) = .ok .rdt ∧
    decode (.host { op := 0b1010, ports := { Ports.zero with u8 := 0x83 } }) = .ok (.wrur 0x83) ∧
    decode (.host { op := 0b1100, ports := { Ports.zero with u8 := 0xFF } }) = .ok (.setres 0xFF) ∧
    decode (.host { op := 0b1101, ports := { Ports.zero with
      busId := { id := 1 }, dataPin := { id := 21 }, clockPin := { id := 22 }, dataPullup := true } }) =
      .ok (.init { id := 1 } { id := 21 } { id := 22 } true false) ∧
    decode (.wire [0b11110011]) = .ok .wTrigTNh ∧ decode (.wire [0b11100110, 0x83]) = .ok (.wWrUreg 0x83) ∧
    decode (.wire [0b11111110]) = .ok .wSrst

/-- The reset state has BH unwritten, PH = IDLE and not busy; STATUS, VAL, CRC_OK and the ten datapath registers hold no value; the configuration has the defaults enforce, no legacy view and rounding to nearest. (R270, R6) -/
def Obligations.ResetStateOfTheBlock : Prop :=
  State.reset.bh = none ∧ State.reset.ph = .idle ∧ busy State.reset = false ∧ State.reset.status = none ∧
    State.reset.val = none ∧ State.reset.crcOk = none ∧ DatapathDead State.reset ∧
    State.reset.cfg.crcPolicy = .enforce ∧ State.reset.cfg.legacyView = false ∧ State.reset.cfg.round = .rne32

/-- The invariant (legal phase, live registers, a value only beside Ok, legacy outputs only with the view on, a legal trace) holds at block reset. (R270, R21) -/
def Obligations.ResetMeetsInvariant : Prop :=
  Invariant State.reset

/-- For every state that meets the invariant and every step to a next state: the next state meets it. So PH stays below the number of calls of its operation (that it does not reach it, which R31 allows, is the model's choice, log entry 23), a running operation holds the registers it will read, no datapath register survives an operation, a value stands only beside Ok, and every call in the trace is one of the block's transactions with timeout 1000 and the right number of bytes, a Delay of 50 or 15, a configuration at 100 kHz in master mode, or a diagnostic for a failed check; no hold-mode byte is ever sent. (R21, R31, R30, R56, R58, R96, R250, R252) -/
def Obligations.StepKeepsInvariant : Prop :=
  ∀ s t : State, Invariant s → step s = .next t → Invariant t

/-- For every state that meets the invariant, the step is neither the fault of a dead register nor the fault of a phase outside its call list. That Run(op, n) after the last of n calls counts as outside is the model's choice (log entry 23). (R21, R31) -/
def Obligations.InvariantExcludesDeadReads : Prop :=
  ∀ s : State, Invariant s → step s ≠ .fault .deadRegister ∧ step s ≠ .fault .phaseOutsideCallList

/-- For every two one-to-one renamings, of the bus names and of the pin names, and every state: the step of the renamed state answers what the step of the state answers, the next state renamed, and the same fault or refusal. So no step looks into a name, orders names or knows a bound of them, and the numbers in BusId and Pin stand for any type with decidable equality (log entry 8). (R6, R88) -/
def Obligations.BusAndPinNamesAreOpaque : Prop :=
  ∀ (f : BusId → BusId) (g : Pin → Pin) (s : State), Function.Injective f → Function.Injective g →
    step (renameState f g s) = mapNext (renameState f g) (step s)
end

