-- ==== Sys2Proof/Laws/Numerics.lean ====
section
/-! SUPPORT. Bounds of binary32 values and of the real formulas of R135 and R136 on the domain of R143. -/

namespace Sys2Proof.Machine

theorem f32Exp_le (f : F32) : f32Exp f ≤ 255 := by
  unfold f32Exp; omega

theorem f32Units_le (f : F32) : f32Units f ≤ 2 ^ 24 * 2 ^ 255 := by
  have hs : f32Frac f + (if f32Exp f = 0 then 0 else 2 ^ 23) ≤ 2 ^ 24 := by
    unfold f32Frac; split <;> omega
  exact Nat.mul_le_mul hs (Nat.pow_le_pow_right (by omega) (max_le (f32Exp_le f) (by omega)))

theorem f32Units_ge_of_not_finite {f : F32} (h : f32Finite f = false) : 2 ^ 278 ≤ f32Units f := by
  have he : f32Exp f = 255 := by simpa [f32Finite] using h
  unfold f32Units
  rw [he]
  calc 2 ^ 278 = 2 ^ 23 * 2 ^ 255 := pow_add 2 23 255
    _ ≤ _ := Nat.mul_le_mul (by simp) (by norm_num)

theorem abs_f32Val (f : F32) : |f32Val f| = (f32Units f : ℚ) / 2 ^ 150 := by
  have h : (0 : ℚ) ≤ (f32Units f : ℚ) / 2 ^ 150 := by positivity
  unfold f32Val
  split
  · rw [abs_neg, abs_of_nonneg h]
  · exact abs_of_nonneg h

theorem abs_f32Val_le (f : F32) : |f32Val f| ≤ 2 ^ 129 := by
  have h : (f32Units f : ℚ) ≤ 2 ^ 24 * 2 ^ 255 := by exact_mod_cast f32Units_le f
  rw [abs_f32Val, div_le_iff₀ (by positivity)]
  exact h.trans_eq (by rw [← pow_add, ← pow_add])

/-- What is read from a NaN or an infinity is beyond every finite binary32 (log entry 22). -/
theorem abs_f32Val_ge_of_not_finite {f : F32} (h : f32Finite f = false) : 2 ^ 128 ≤ |f32Val f| := by
  have h : (2 : ℚ) ^ 278 ≤ f32Units f := by exact_mod_cast f32Units_ge_of_not_finite h
  rw [abs_f32Val, le_div_iff₀ (by positivity)]
  exact (pow_add 2 128 150).ge.trans h

/-- `PP` from the least temperature of R143 on. -/
theorem pp_bounds {x p : ℝ} (h : IsPP x p) (hl : -(4685 / 100) ≤ x) :
    1 / 100 ≤ p ∧ p ≤ 10 ^ 9 := by
  have hc : 0 < x + 23566 / 100 := by linarith
  have h1 : 176239 / 100 / (x + 23566 / 100) ≤ 10 := by rw [div_le_iff₀ hc]; linarith
  have h2 : 0 ≤ 176239 / 100 / (x + 23566 / 100) := by positivity
  rw [h]
  constructor
  · calc (1 : ℝ) / 100 = (10 : ℝ) ^ (-2 : ℝ) := by rw [Real.rpow_neg (by norm_num)]; norm_num
      _ ≤ _ := Real.rpow_le_rpow_of_exponent_le (by norm_num) (by linarith)
  · calc _ ≤ (10 : ℝ) ^ (9 : ℝ) := Real.rpow_le_rpow_of_exponent_le (by norm_num) (by linarith)
      _ = 10 ^ 9 := by norm_num

/-- `DP` on the domain of R143: its denominator is negative, as that rule says. -/
theorem dp_bounds {x h d : ℝ} (hd : IsDP x h d) (hl : -(4685 / 100) ≤ x) (hu : x ≤ 12887 / 100) (hh : 0 < h)
    (hh' : h ≤ 200) : |d| ≤ 1000 := by
  obtain ⟨p, hp, rfl⟩ := hd
  have hc : 0 < x + 23566 / 100 := by linarith
  have hb : 48 / 10 ≤ 176239 / 100 / (x + 23566 / 100) := by rw [le_div_iff₀ hc]; linarith
  have hlog : Real.logb 10 (h * p / 100) = Real.logb 10 (h / 100) + (81332 / 10000 - 176239 / 100 / (x + 23566 / 100)) := by
    have hpos : (0 : ℝ) < p := lt_of_lt_of_le (by norm_num) (pp_bounds hp hl).1
    rw [show h * p / 100 = h / 100 * p by ring, Real.logb_mul (by positivity) hpos.ne', hp,
      Real.logb_rpow (by norm_num) (by norm_num)]
  have hh1 : Real.logb 10 (h / 100) ≤ 1 := by
    rw [Real.logb_le_iff_le_rpow (by norm_num) (by positivity), Real.rpow_one]
    linarith
  have hden : Real.logb 10 (h * p / 100) - 81332 / 10000 ≤ -(38 / 10) := by rw [hlog]; linarith
  have hq : 0 ≤ -(176239 / 100) / (Real.logb 10 (h * p / 100) - 81332 / 10000) :=
    div_nonneg_of_nonpos (by norm_num) (by linarith)
  have hq' : -(176239 / 100) / (Real.logb 10 (h * p / 100) - 81332 / 10000) ≤ 500 := by
    rw [div_le_iff_of_neg (by linarith)]; linarith
  rw [abs_le]
  constructor <;> linarith

end Sys2Proof.Machine
end

