-- ==== Sys2Proof/Laws/PerInstr.lean ====
section
/-! SUPPORT. A statement about each instruction as syntax: the form its encoding takes, and what that says of its call list. -/

namespace Sys2Proof.Laws.EncodingForm

open Sys2Proof.Machine

/-- A host operation has a selector below 15 (R90, R98) and at most five external calls (R31); a wire command has its
command byte, one data byte more where that is `0xE6` (R81), and no call list. -/
def Statement (i : Instr) : Prop :=
  match encode i with
  | .host r => i.isHost = true ∧ r.op.toNat < 15 ∧ callCount i ≤ 5
  | .wire bs => i.isHost = false ∧ isBusOp i = false ∧ bs.length = if bs.head? = some 0xE6 then 2 else 1

theorem crcchk (raw : Raw16) (crc : Byte) : Statement (.crcchk raw crc) := by
  simp [Statement, encode, Instr.isHost, callCount, hostFrame]

theorem cvtt (raw : Raw16) : Statement (.cvtt raw) := by
  simp [Statement, encode, Instr.isHost, callCount, hostFrame]

theorem cvth (raw : Raw16) : Statement (.cvth raw) := by
  simp [Statement, encode, Instr.isHost, callCount, hostFrame]

theorem c2f (c : F32) : Statement (.c2f c) := by
  simp [Statement, encode, Instr.isHost, callCount, hostFrame]

theorem cmprh (t h : F32) : Statement (.cmprh t h) := by
  simp [Statement, encode, Instr.isHost, callCount, hostFrame]

theorem ppres (t : F32) : Statement (.ppres t) := by
  simp [Statement, encode, Instr.isHost, callCount, hostFrame]

theorem dewpt (t h : F32) : Statement (.dewpt t h) := by
  simp [Statement, encode, Instr.isHost, callCount, hostFrame]

theorem rdt : Statement .rdt := by
  simp [Statement, encode, Instr.isHost, callCount, hostFrame]

theorem rdh : Statement .rdh := by
  simp [Statement, encode, Instr.isHost, callCount, hostFrame]

theorem rdur : Statement .rdur := by
  simp [Statement, encode, Instr.isHost, callCount, hostFrame]

theorem wrur (v : Byte) : Statement (.wrur v) := by
  simp [Statement, encode, Instr.isHost, callCount, hostFrame]

theorem getres : Statement .getres := by
  simp [Statement, encode, Instr.isHost, callCount, hostFrame]

theorem setres (r : Byte) : Statement (.setres r) := by
  simp [Statement, encode, Instr.isHost, callCount, hostFrame]

theorem init (b : BusId) (dp cp : Pin) (dpu cpu : Bool) : Statement (.init b dp cp dpu cpu) := by
  simp [Statement, encode, Instr.isHost, callCount, hostFrame]

theorem srst : Statement .srst := by
  simp [Statement, encode, Instr.isHost, callCount, hostFrame]

theorem wTrigTNh : Statement .wTrigTNh := by
  simp [Statement, encode, Instr.isHost, callCount, isBusOp]

theorem wTrigHNh : Statement .wTrigHNh := by
  simp [Statement, encode, Instr.isHost, callCount, isBusOp]

theorem wTrigTH : Statement .wTrigTH := by
  simp [Statement, encode, Instr.isHost, callCount, isBusOp]

theorem wTrigHH : Statement .wTrigHH := by
  simp [Statement, encode, Instr.isHost, callCount, isBusOp]

theorem wWrUreg (v : Byte) : Statement (.wWrUreg v) := by
  simp [Statement, encode, Instr.isHost, callCount, isBusOp]

theorem wRdUreg : Statement .wRdUreg := by
  simp [Statement, encode, Instr.isHost, callCount, isBusOp]

theorem wSrst : Statement .wSrst := by
  simp [Statement, encode, Instr.isHost, callCount, isBusOp]

end Sys2Proof.Laws.EncodingForm
end

