-- ==== Sys2Proof/Laws/Words.lean ====
section
/-! SUPPORT. The two assemblies of words (R91, R92) as concatenations of bit vectors. -/

namespace Sys2Proof.Machine

theorem crcLoad_append (raw : Raw16) (crc : Byte) : crcLoad raw crc = (raw ++ crc : BitVec 24) := by
  apply BitVec.eq_of_getLsbD_eq
  intro i hi
  rw [BitVec.getLsbD_append]
  simp only [crcLoad, BitVec.getLsbD_or, BitVec.getLsbD_shiftLeft, BitVec.getLsbD_setWidth]
  by_cases h : i < 8
  · simp [h]; intro; omega
  · have h1 : i - 8 < 24 := by omega
    have h2 : crc.getLsbD i = false := BitVec.getLsbD_of_ge _ _ (by omega)
    simp [h, hi, h1, h2]

theorem assembleRaw_append (msb lsb : Byte) : assembleRaw msb lsb = (msb ++ lsb : BitVec 16) := by
  apply BitVec.eq_of_getLsbD_eq
  intro i hi
  rw [BitVec.getLsbD_append]
  simp only [assembleRaw, BitVec.getLsbD_or, BitVec.getLsbD_shiftLeft, BitVec.getLsbD_setWidth]
  by_cases h : i < 8
  · simp [h]; intro; omega
  · have h1 : i - 8 < 16 := by omega
    have h2 : lsb.getLsbD i = false := BitVec.getLsbD_of_ge _ _ (by omega)
    simp [h, hi, h1, h2]

end Sys2Proof.Machine
end

