-- ==== Sys2Proof/Tests/Slice0.lean ====
section
/-! SUPPORT. The model's own tests. Expected values come from spec/95_test_vectors.md (V: its section), from the encoding
tables of 30_encoding.md, or by hand from the rule named; and for every obligation with hypotheses a witness that meets them. -/

namespace Sys2Proof.Tests

open Sys2Proof.Machine

def bus0 : BusId := { id := 0 }
def p21 : Pin := { id := 21 }
def p22 : Pin := { id := 22 }
def init0 : Instr := .init bus0 p21 p22 true true

/-- After an INIT: the handle written, the sequencer idle. -/
def ready : State := { State.reset with bh := some bus0 }

/-- In the middle of an operation, with these transport answers decided. -/
def mid (i : Instr) (k : Nat) (answers : List Answer) : State := { ready with ph := .run i k, answers := answers }

/-- What a test looks at after one step: status, value and flag. -/
def seen (o : Out) : Option (Option Status × Option Value × Option Bool) :=
  (nextState o).map fun s => (s.status, s.val, s.crcOk)

/-- A responder that is installed and present. -/
def devUp : Dev := { Dev.start with installed := true, ur := 0x87, measT := 0x6838, measH := 0x4E84 }

/-! ### Well-formedness: each check refuses an ill-formed term -/

theorem test_wf_selector : HostRequest.wf { op := 15, ports := Ports.zero } = false := by decide
theorem test_wf_selector_last : HostRequest.wf { op := 14, ports := Ports.zero } = true := by decide
theorem test_wf_wire_empty : wireWf [] = false := by decide
theorem test_wf_wire_undefined : wireWf [0xE4] = false := by decide
theorem test_wf_wire_missing_data : wireWf [0xE6] = false := by decide
theorem test_wf_wire_extra_byte : wireWf [0xF3, 0x00] = false := by decide
theorem test_wf_wire_extra_data : wireWf [0xE6, 0x00, 0x00] = false := by decide
theorem test_wf_txn_address : Txn.wf [.start, .addr 0x41 .write, .stop] = false := by decide
theorem test_wf_txn_three_bytes :
    Txn.wf [.start, .addr 0x40 .write, .wbyte 0, .wbyte 0, .wbyte 0, .stop] = false := by decide
theorem test_wf_txn_two_byte_read :
    Txn.wf [.start, .addr 0x40 .read, .rbyte .ack, .rbyte .nack, .stop] = false := by decide
theorem test_wf_txn_last_ack : Txn.wf [.start, .addr 0x40 .read, .rbyte .ack, .stop] = false := by decide
theorem test_wf_txn_read3 : Txn.wf (tRead 3) = true := by decide
theorem test_wf_heater_none : DevParams.wf { Config.defaults.dev with heaterMask := 0x00 } = false := by decide
theorem test_wf_heater_reserved : DevParams.wf { Config.defaults.dev with heaterMask := 0x80 } = false := by decide
theorem test_wf_heater_two : DevParams.wf { Config.defaults.dev with heaterMask := 0x06 } = false := by decide
theorem test_wf_defaults : DevParams.wf Config.defaults.dev = true := by decide

/-! ### Decoding: for every constructor a word written out from R90 or R86 -/

theorem test_decode_crcchk :
    decode (.host { op := 0b0000, ports := { Ports.zero with u16 := 0x4E85, u8 := 0x6B } }) =
      .ok (.crcchk 0x4E85 0x6B) := rfl
theorem test_decode_cvtt :
    decode (.host { op := 0b0001, ports := { Ports.zero with u16 := 0x6838 } }) = .ok (.cvtt 0x6838) := rfl
theorem test_decode_cvth :
    decode (.host { op := 0b0010, ports := { Ports.zero with u16 := 0x4E84 } }) = .ok (.cvth 0x4E84) := rfl
theorem test_decode_c2f :
    decode (.host { op := 0b0011, ports := { Ports.zero with f32a := 0x41C57DC0 } }) = .ok (.c2f 0x41C57DC0) := rfl
theorem test_decode_cmprh :
    decode (.host { op := 0b0100, ports := { Ports.zero with f32a := 0x41C57DC0, f32b := 0x420159D0 } }) =
      .ok (.cmprh 0x41C57DC0 0x420159D0) := rfl
theorem test_decode_ppres :
    decode (.host { op := 0b0101, ports := { Ports.zero with f32a := 0x41C80000 } }) = .ok (.ppres 0x41C80000) := rfl
theorem test_decode_dewpt :
    decode (.host { op := 0b0110, ports := { Ports.zero with f32a := 0x41C57DC0, f32b := 0x420129A5 } }) =
      .ok (.dewpt 0x41C57DC0 0x420129A5) := rfl
theorem test_decode_rdt : decode (.host { op := 0b0111, ports := { Ports.zero with u8 := 1 } }) = .ok .rdt := rfl
theorem test_decode_rdh : decode (.host { op := 0b1000, ports := Ports.zero }) = .ok .rdh := rfl
theorem test_decode_rdur : decode (.host { op := 0b1001, ports := Ports.zero }) = .ok .rdur := rfl
theorem test_decode_wrur :
    decode (.host { op := 0b1010, ports := { Ports.zero with u8 := 0x01 } }) = .ok (.wrur 0x01) := rfl
theorem test_decode_getres : decode (.host { op := 0b1011, ports := Ports.zero }) = .ok .getres := rfl
theorem test_decode_setres :
    decode (.host { op := 0b1100, ports := { Ports.zero with u8 := 0x81 } }) = .ok (.setres 0x81) := rfl
theorem test_decode_init :
    decode (.host { op := 0b1101, ports := { Ports.zero with dataPin := p21, clockPin := p22, clockPullup := true } }) =
      .ok (.init bus0 p21 p22 false true) := rfl
theorem test_decode_srst : decode (.host { op := 0b1110, ports := Ports.zero }) = .ok .srst := rfl
theorem test_decode_w_trig_t_nh : decode (.wire [0b11110011]) = .ok .wTrigTNh := rfl
theorem test_decode_w_trig_h_nh : decode (.wire [0b11110101]) = .ok .wTrigHNh := rfl
theorem test_decode_w_trig_t_h : decode (.wire [0b11100011]) = .ok .wTrigTH := rfl
theorem test_decode_w_trig_h_h : decode (.wire [0b11100101]) = .ok .wTrigHH := rfl
theorem test_decode_w_wr_ureg : decode (.wire [0b11100110, 0b10000111]) = .ok (.wWrUreg 0x87) := rfl
theorem test_decode_w_rd_ureg : decode (.wire [0b11100111]) = .ok .wRdUreg := rfl
theorem test_decode_w_srst : decode (.wire [0b11111110]) = .ok .wSrst := rfl
theorem test_decode_missing_data : decode (.wire [0xE6]) = .error .malformedFrame := rfl
theorem test_decode_extra_byte : decode (.wire [0xF3, 0x00]) = .error .malformedFrame := rfl
theorem test_table_word_host : decodeTableWord 4 0b1110 = some .srst := by decide
theorem test_table_word_host_reserved : decodeTableWord 4 0b1111 = none := by decide
theorem test_table_word_wire : decodeTableWord 8 0xE7 = some .wRdUreg := by decide
theorem test_table_word_data : decodeTableWord 16 0x83E6 = some (.wWrUreg 0x83) := by decide
theorem test_fetch_word_runs : step (State.reset.withFetchWord 4 7) = exec .rdt State.reset := by rfl

/-! ### Operand forms and the flag (V 2.1, 2.5) -/

theorem test_raw_assembly : assembleRaw 0xFF 0x00 = 0xFF00 := by decide
theorem test_status_mask : maskStatus 0x4E85 = 0x4E84 := by decide
theorem test_resolution_field : resBits 0x83 = 0x81 := by decide
theorem test_merge : mergeRes 0x3A 0x7E = 0x3A := by decide
theorem test_crc_field : crcLoad 0x683A 0x7C = 0x683A7C := by decide
theorem test_crc_iteration : crcIter 0x4E856B 1 = 0x02C56B := by decide
theorem test_crc_remainder : crcDivide (crcLoad 0x683A 0xFC) = 0x000080 := by decide +kernel
theorem test_crc8 : crc8 0x1234 = 0xB6 := by decide +kernel
theorem test_tread3 :
    tRead 3 = [.start, .addr 0x40 .read, .rbyte .ack, .rbyte .ack, .rbyte .nack, .stop] := by decide
theorem test_addr_byte : addrByte 0x40 .write = 0x80 ∧ addrByte 0x40 .read = 0x81 := by decide
theorem test_status_codes : statusCode .ok = 0 ∧ statusCode .checksumMismatch = 8 := by decide

/-! ### One step of each instruction -/

/-- V 2.1. -/
theorem test_crcchk_valid : seen (exec (.crcchk 0x683A 0x7C) State.reset) = some (some .ok, some (.bool true), some true) := by
  decide +kernel
/-- V 2.1: the masked value against the checksum of the unmasked one. -/
theorem test_crcchk_masked :
    seen (exec (.crcchk 0x6838 0x7C) ready) = some (some .ok, some (.bool false), some false) := by decide +kernel
/-- V 2.2: the value for which step-by-step binary32 gives another bit pattern. -/
theorem test_cvtt_small : seen (exec (.cvtt 0x0004) ready) = some (some .ok, some (.f32 0xC23B5B6B), none) := by
  decide +kernel
/-- V 2.2. -/
theorem test_cvtt_top : seen (exec (.cvtt 0xFFFF) ready) = some (some .ok, some (.f32 0x4300DE09), none) := by
  decide +kernel
/-- V 2.2. -/
theorem test_cvth_zero : seen (exec (.cvth 0x0000) ready) = some (some .ok, some (.f32 0xC0C00000), none) := by
  decide +kernel
/-- V 2.2. -/
theorem test_cvth_top : seen (exec (.cvth 0xFFFF) ready) = some (some .ok, some (.f32 0x42EDFF06), none) := by
  decide +kernel
/-- V 2.3. -/
theorem test_c2f_tenth : seen (exec (.c2f 0x3DCCCCCD) ready) = some (some .ok, some (.f32 0x4200B852), none) := by
  decide +kernel
/-- V 2.3: no lower bound. -/
theorem test_c2f_below_zero_kelvin :
    seen (exec (.c2f 0xC3889333) ready) = some (some .ok, some (.f32 0xC3E5D5C2), none) := by decide +kernel
/-- V 2.3: an exact zero is +0.0. -/
theorem test_cmprh_zero :
    seen (exec (.cmprh 0x41C80000 0x00000000) ready) = some (some .ok, some (.f32 0x00000000), none) := by decide +kernel
/-- V 2.3: the operands in the other order would give 25 + (25 - 50) * (-3/20) = 28.75. -/
theorem test_cmprh_order :
    seen (exec (.cmprh 0x41700000 0x42480000) ready) = some (some .ok, some (.f32 0x42420000), none) := by decide +kernel
/-- V 2.4: t + C = 0 is outside the domain, and the operation still ends with Ok. -/
theorem test_ppres_outside :
    (nextState (exec (.ppres 0xC36BA8F6) ready)).map (fun s => (s.status, s.seq)) = some (some .ok, 1) := by
  decide +kernel
/-- V 2.4: inside the domain no free value is drawn. -/
theorem test_ppres_inside :
    (nextState (exec (.ppres 0x41C80000) ready)).map (fun s => (s.status, s.seq)) = some (some .ok, 0) := by
  decide +kernel
/-- V 2.9: a humidity of zero. -/
theorem test_dewpt_outside :
    (nextState (exec (.dewpt 0x41C80000 0x00000000) ready)).map (fun s => (s.status, s.seq)) = some (some .ok, 1) := by
  decide +kernel
/-- V 2.4. -/
theorem test_dewpt_inside :
    (nextState (exec (.dewpt 0x41C80000 0x42480000) ready)).map (fun s => (s.status, s.seq)) = some (some .ok, 0) := by
  decide +kernel
/-- V 2.6, row 1: the check is over the unmasked value, the value is masked. -/
theorem test_rdt_read :
    seen (exec .rdt (mid .rdt 2 [.exec .ok [0x68, 0x3A, 0x7C]])) = some (some .ok, some (.u16 0x6838), some true) := by
  decide +kernel
/-- V 2.6, row 7: the trigger fails; no Delay is made. -/
theorem test_rdt_trigger_fails :
    (nextState (exec .rdt { mid .rdt 0 [.exec .transactionFailed []] with cmd := some 0xF3 })).map
      (fun s => (s.status, s.val, s.ph, s.trace)) =
      some (some .transactionFailedError, none, .idle,
        [.busExec bus0 [.start, .addr 0x40 .write, .wbyte 0xF3, .stop] 1000 .transactionFailed []]) := by decide
/-- V 3, P3: the corrupted frame under `enforce`. -/
theorem test_rdh_mismatch :
    seen (exec .rdh { mid .rdh 3 [] with raw := some 0x4E85, cks := some 0x6A, crcOk := some false }) =
      some (some .checksumMismatch, none, some false) := by decide
/-- R32, R24: acceptance writes CMD and makes no call. -/
theorem test_rdh_accepted :
    (nextState (exec .rdh ready)).map (fun s => (s.ph, s.cmd, s.trace)) = some (.run .rdh 0, some 0xF5, []) := by decide
/-- V 2.7. -/
theorem test_rdur_read :
    seen (exec .rdur (mid .rdur 1 [.exec .ok [0x02]])) = some (some .ok, some (.u8 0x02), none) := by decide
/-- V 2.9: use before INIT. -/
theorem test_rdur_unwritten :
    faultOf (exec .rdur { State.reset with ph := .run .rdur 0 }) = some .unwrittenHandle := by decide
/-- V 2.7: one transaction, two bytes. -/
theorem test_wrur :
    (nextState (exec (.wrur 0x83) (mid (.wrur 0x83) 0 [.exec .ok []]))).map (fun s => (s.status, s.trace)) =
      some (some .ok, [.busExec bus0 [.start, .addr 0x40 .write, .wbyte 0xE6, .wbyte 0x83, .stop] 1000 .ok []]) := by
  decide
/-- V 2.7. -/
theorem test_wrur_fails :
    seen (exec (.wrur 0x00) (mid (.wrur 0x00) 0 [.exec .transactionFailed []])) =
      some (some .transactionFailedError, none, none) := by decide
/-- V 2.7. -/
theorem test_getres : seen (exec .getres (mid .getres 1 [.exec .ok [0x7E]])) = some (some .ok, some (.u8 0x00), none) := by
  decide
/-- V 2.7. -/
theorem test_getres_fails :
    seen (exec .getres (mid .getres 0 [.exec .invalidDriverState []])) =
      some (some .invalidDriverStateError, none, none) := by decide
/-- V 2.7: the byte that will be written is 0xBB. -/
theorem test_setres_merge :
    (nextState (exec (.setres 0xFF) { mid (.setres 0xFF) 1 [.exec .ok [0x3A]] with resv := some 0xFF })).map
      (fun s => (s.ph, s.merge)) = some (.run (.setres 0xFF) 2, some 0xBB) := by decide
/-- V 2.7: a failed read; no write. -/
theorem test_setres_read_fails :
    (nextState (exec (.setres 0x81) { mid (.setres 0x81) 1 [.exec .transactionFailed []] with resv := some 0x81 })).map
      (fun s => (s.status, s.ph)) = some (some .transactionFailedError, .idle) := by decide
/-- V 2.8: every probe failure is `NotFoundError`, and `BH` stays written. -/
theorem test_init_probe :
    (nextState (exec init0 (mid init0 2 [.exec .timeout []]))).map (fun s => (s.status, s.bh, s.ph)) =
      some (some .notFoundError, some bus0, .idle) := by decide
/-- V 2.8: `BH` is written before the first call. -/
theorem test_init_accepted :
    (nextState (exec init0 State.reset)).map (fun s => (s.bh, s.ph, s.trace)) =
      some (some bus0, .run init0 0, []) := by decide
/-- V 2.8: the settle delay, then Ok. -/
theorem test_srst_settles :
    (nextState (exec .srst (mid .srst 1 []))).map (fun s => (s.status, s.trace)) = some (some .ok, [.delay 15]) := by
  decide
/-- V 2.8: no Delay after a failure. -/
theorem test_srst_fails :
    (nextState (exec .srst (mid .srst 0 [.exec .invalidArgument []]))).map (fun s => (s.status, s.ph)) =
      some (some .invalidArgumentError, .idle) := by decide
/-- R86, R76. -/
theorem test_w_trig_t_nh :
    (nextState (exec .wTrigTNh { ready with dev := devUp })).map (·.dev.pend) = some .temperature := by decide
/-- R86, R76. -/
theorem test_w_trig_h_nh :
    (nextState (exec .wTrigHNh { ready with dev := devUp })).map (·.dev.pend) = some .humidity := by decide
/-- R96. -/
theorem test_w_trig_t_h : refusalOf (exec .wTrigTH ready) = some .holdModeNotCovered := by decide
/-- R96. -/
theorem test_w_trig_h_h : refusalOf (exec .wTrigHH ready) = some .holdModeNotCovered := by decide
/-- R53: all eight bits. -/
theorem test_w_wr_ureg :
    (nextState (exec (.wWrUreg 0x83) { ready with dev := devUp })).map (·.dev.ur) = some 0x83 := by decide
/-- R76. -/
theorem test_w_rd_ureg :
    (nextState (exec .wRdUreg { ready with dev := devUp })).map (·.dev.selUr) = some true := by decide
/-- V 3, P1: from 0x87, default 0x02, heater bit 0x04, to 0x06. -/
theorem test_w_srst :
    (nextState (exec .wSrst { ready with dev := devUp })).map (fun s => (s.dev.ur, s.dev.rebooting)) =
      some (0x06, true) := by decide

/-! ### The machine around them -/

/-- V 2.9: selector 15. -/
theorem test_selector_15 : refusalOf (step (placeFrame (hostFrame 15 Ports.zero) ready)) = some .reservedSelector := by
  decide
/-- R97. -/
theorem test_undefined_command : refusalOf (step (placeFrame (.wire [0x00]) ready)) = some .undefinedCommand := by decide
/-- V 2.9: a request inside the 50 ms wait. -/
theorem test_busy : refusalOf (exec .srst (mid .rdt 1 [])) = some .busy := by decide
/-- V 2.9: a sixth result value. -/
theorem test_alien_answer : refusalOf (exec .rdur (mid .rdur 0 [.alien 6])) = some .illTypedAnswer := by decide
/-- V 2.6, row 3 with the legacy view on: a reading of zero shows -999.0. -/
theorem test_legacy_zero :
    (nextState (exec .rdt { mid .rdt 2 [.exec .ok [0, 0, 0]] with cfg := { Config.defaults with legacyView := true } })).map
      (fun s => (s.status, s.legacyRaw, s.legacyEng)) = some (some .ok, some 0, some 0xC479C000) := by decide +kernel
/-- V 3, P3 step 2 with the legacy view on. -/
theorem test_legacy_value :
    (nextState (exec .rdh { mid .rdh 3 [] with
        raw := some 0x4E85, cks := some 0x6A,
        cfg := { Config.defaults with crcPolicy := .warnAndProceed, legacyView := true } })).map
      (fun s => (s.val, s.legacyRaw, s.legacyEng)) = some (some (.u16 0x4E84), some 0x4E84, some 0x420159D0) := by
  decide +kernel
/-- V 3, P1 step 4: the responder's frame. -/
theorem test_responder_frame :
    devRespond Config.defaults.dev (tRead 3) { devUp with pend := .humidity, elapsedMs := 50 } =
      (.ok, [0x4E, 0x86, 0x38], { devUp with elapsedMs := 50 }) := by decide +kernel
/-- R76: too early. -/
theorem test_responder_early :
    (devRespond Config.defaults.dev (tRead 3) { devUp with pend := .humidity, elapsedMs := 49 }).1 =
      .transactionFailed := by decide
/-- R76: the reboot window at 14 and at 15 ms. -/
theorem test_reboot_window :
    (devDelay 14 { devUp with rebooting := true }).rebooting = true ∧
      (devDelay 15 { devUp with rebooting := true }).rebooting = false := by decide
/-- V 2.5: the shifted generator. -/
theorem test_poly_shift : Config.poly24 >>> 15 = 0x000131 ∧ Config.poly24 >>> 7 = 0x013100 := by decide
/-- R87: the value of a binary32. -/
theorem test_f32_val : f32Val 0xC0C00000 = -6 ∧ f32Val 0x42420000 = 485 / 10 := by decide +kernel

/-! ### Witnesses: states and operands that meet the hypotheses of each obligation together

Each theorem is named after its obligation; where an obligation has several clauses there is one part for each, at the
boundary values of its range. -/

/-- The read of three bytes answered. -/
def frameOk : List Answer := [.exec .ok [0x68, 0x3A, 0x7C]]

/-- A request with this selector and byte operand. -/
def request (op : BitVec 4) (v : Byte) : HostRequest := { op := op, ports := { Ports.zero with u8 := v } }

/-- The responder behind the bus. -/
def onDev (s : State) : State := { s with link := .responder, dev := devUp }

theorem witness_CrcchkReturnsDivisionVerdict : ready.ph = .idle := rfl

theorem witness_CrcIterationClearsTestedBit :
    (0 ≤ 15 ∧ (0x800000 : W24).getLsbD (23 - 0) = true ∧ (0x7FFFFF : W24).getLsbD (23 - 0) = false) ∧
    (15 ≤ 15 ∧ (0x000100 : W24).getLsbD (23 - 15) = true ∧ (0xFFFEFF : W24).getLsbD (23 - 15) = false) := by decide

theorem witness_CvttRoundsExactQuotient : ready.ph = .idle ∧ ready.cfg.round = .rne32 := by decide

theorem witness_CvthIsExact : ready.ph = .idle := rfl

/-- The largest and the smallest finite number in size. -/
theorem witness_C2fRoundsExactValue :
    ready.ph = .idle ∧ ready.cfg.round = .rne32 ∧ f32Finite 0x7F7FFFFF = true ∧ f32Finite 0x80000001 = true := by decide

theorem witness_CmprhRoundsExactValue :
    ready.ph = .idle ∧ ready.cfg.round = .rne32 ∧ f32Finite 0xFF7FFFFF = true ∧ f32Finite 0x7F7FFFFF = true := by decide

/-- A NaN and an infinity; the binary32 just below -46.85 and just above 128.87; a humidity of zero and one just above 200. -/
theorem witness_ConversionsOutsideDomainDeliverSomeValue :
    ready.ph = .idle ∧ f32Finite 0x7FC00000 = false ∧ (f32Finite 0x41C80000 && f32Finite 0xFF800000) = false ∧
      tempDomain 0xC23B6667 = false ∧ tempDomain 0x4300DEB9 = false ∧
      (tempDomain 0x41C80000 && humidityDomain 0x00000000) = false ∧
      (tempDomain 0x41C80000 && humidityDomain 0x43480001) = false := by decide +kernel

/-- The binary32 just above -46.85 with the smallest positive humidity, and the one just below 128.87 with 200. -/
theorem witness_PpresDewptDeliverNumericsFields :
    ready.ph = .idle ∧
      (f32Finite 0xC23B6666 = true ∧ -(4685 / 100) ≤ f32Val 0xC23B6666 ∧ f32Val 0xC23B6666 ≤ 12887 / 100 ∧
        f32Finite 0x00000001 = true ∧ 0 < f32Val 0x00000001 ∧ f32Val 0x00000001 ≤ 200) ∧
      (f32Finite 0x4300DEB8 = true ∧ -(4685 / 100) ≤ f32Val 0x4300DEB8 ∧ f32Val 0x4300DEB8 ≤ 12887 / 100 ∧
        f32Finite 0x43480000 = true ∧ 0 < f32Val 0x43480000 ∧ f32Val 0x43480000 ≤ 200) := by decide +kernel

theorem witness_OtherBuildRoundingDelivers :
    let s := { ready with cfg := { Config.defaults with round := .build } }
    s.ph = .idle ∧ s.cfg.round = .build ∧ f32Finite 0x41C80000 = true ∧ f32Finite 0x00000000 = true ∧
      f32Finite 0x7F7FFFFF = true := by decide

/-- The rational just inside the bound with one finite number, and the bound itself. -/
theorem witness_Rne32IsNearestTiesToEven :
    |(2 ^ 128 - 2 ^ 103 - 1 : ℚ)| < 2 ^ 128 - 2 ^ 103 ∧ f32Finite 0x7F7FFFFF = true ∧
      (2 ^ 128 - 2 ^ 103 : ℚ) ≤ 2 ^ 128 - 2 ^ 103 :=
  ⟨by norm_num, by decide, le_refl _⟩

theorem witness_Rne32FixesFiniteValues :
    (f32Finite 0x7F7FFFFF = true ∧ (0x7F7FFFFF : F32) ≠ 0x80000000#32) ∧
      (f32Finite 0x80000001 = true ∧ (0x80000001 : F32) ≠ 0x80000000#32) := by decide

/-- The operands of the domain have real values in it. -/
theorem real_of_domain {t : F32} (h : tempDomain t = true) :
    -(4685 / 100) ≤ (f32Val t : ℝ) ∧ (f32Val t : ℝ) ≤ 12887 / 100 := by
  simp only [tempDomain, Bool.and_eq_true, decide_eq_true_eq] at h
  have hl := (Rat.cast_le (K := ℝ)).mpr h.1.2
  have hu := (Rat.cast_le (K := ℝ)).mpr h.2
  push_cast at hl hu
  exact ⟨hl, hu⟩

theorem real_of_humidity {h : F32} (hh : humidityDomain h = true) : 0 < (f32Val h : ℝ) ∧ (f32Val h : ℝ) ≤ 200 := by
  simp only [humidityDomain, Bool.and_eq_true, decide_eq_true_eq] at hh
  exact ⟨by exact_mod_cast hh.1.2, by exact_mod_cast hh.2⟩

/-- Under tolerances wide enough for every binary32 the law holds of the two unknown functions. -/
theorem wide_law : NumericsLaw Config.numPpres Config.numDewpt (2 ^ 140) (2 ^ 140) := by
  have val_le (f : F32) : |(f32Val f : ℝ)| ≤ 2 ^ 129 := by exact_mod_cast abs_f32Val_le f
  constructor
  · intro t p ht hp
    have hb := pp_bounds hp (real_of_domain ht).1
    have hs := abs_sub (f32Val (Config.numPpres t) : ℝ) p
    rw [abs_of_nonneg (a := p) (by linarith [hb.1])] at hs
    have hv := val_le (Config.numPpres t)
    push_cast
    have : (2 : ℝ) ^ 129 + p ≤ 2 ^ 140 * p := by linarith [hb.1, hb.2]
    linarith
  · intro t h d ht hh hd
    have hb := dp_bounds hd (real_of_domain ht).1 (real_of_domain ht).2 (real_of_humidity hh).1 (real_of_humidity hh).2
    have hs := abs_sub (f32Val (Config.numDewpt t h) : ℝ) d
    have hv := val_le (Config.numDewpt t h)
    push_cast
    linarith

/-- 25 degrees at 100 percent, and the ends of the domain. -/
theorem witness_NumericsLawBoundsDeliveredValues :
    NumericsLaw Config.numPpres Config.numDewpt (2 ^ 140) (2 ^ 140) ∧ ready.ph = .idle ∧
      (tempDomain 0x41C80000 = true ∧ humidityDomain 0x42C80000 = true ∧ f32Val 0x42C80000 = 100) ∧
      (tempDomain 0xC23B6666 = true ∧ humidityDomain 0x00000001 = true) ∧
      (tempDomain 0x4300DEB8 = true ∧ humidityDomain 0x43480000 = true) ∧
      (∃ p, IsPP (f32Val 0x41C80000 : ℝ) p) ∧ ∃ d, IsDP (f32Val 0x41C80000 : ℝ) (f32Val 0x42C80000 : ℝ) d :=
  ⟨wide_law, rfl, by decide +kernel, by decide +kernel, by decide +kernel, ⟨_, rfl⟩, _, _, rfl, rfl⟩

theorem witness_PureOperationsTouchNothingElse :
    ready.ph = .idle ∧ isPure (.crcchk 0 0) = true ∧ isPure (.cvtt 0) = true ∧ isPure (.cvth 0) = true ∧
      isPure (.c2f 0) = true ∧ isPure (.cmprh 0 0) = true ∧ isPure (.ppres 0) = true ∧ isPure (.dewpt 0 0) = true := by
  decide

theorem witness_RequestAcceptedAtIdle :
    ready.ph = .idle ∧ isBusOp .rdt = true ∧ isBusOp .rdh = true ∧ isBusOp .rdur = true ∧ isBusOp (.wrur 0) = true ∧
      isBusOp .getres = true ∧ isBusOp (.setres 0) = true ∧ isBusOp init0 = true ∧ isBusOp .srst = true := by decide

theorem witness_RequestWhileBusyRefused :
    (mid .rdt 1 []).ph = .run .rdt 1 ∧ Instr.isHost (.setres 0) = true ∧ Instr.setres 0 ≠ .rdt ∧
      (mid (.setres 1) 0 []).ph = .run (.setres 1) 0 ∧ Instr.setres 0 ≠ .setres 1 := by decide

theorem witness_PendingRequestDoesNotDisturb :
    (mid .rdt 1 []).ph = .run .rdt 1 ∧ ∃ t, step (mid .rdt 1 []) = .next t := ⟨rfl, _, rfl⟩

/-- A measurement in its wait meets the invariant. -/
theorem mid_rdt_invariant : Invariant { mid .rdt 1 [] with cmd := some 0xF3 } := by
  simp [Invariant, PhaseLegal, RegistersLive, MeasurementLive, ResponseLegal, LegacyLegal, mid, ready, State.reset, callCount]

/-- INIT before its first call meets the invariant. -/
theorem mid_init_invariant : Invariant (onDev (mid init0 0 [])) := by
  simp [Invariant, PhaseLegal, RegistersLive, ResponseLegal, LegacyLegal, onDev, mid, init0, ready, State.reset, callCount]

/-- SETRES before its last call meets the invariant. -/
theorem mid_setres_invariant :
    Invariant { onDev (mid (.setres 0x81) 2 []) with resv := some 0x81, regv := some 0x06, merge := some 0x87 } := by
  simp [Invariant, PhaseLegal, RegistersLive, ResponseLegal, LegacyLegal, onDev, mid, ready, State.reset, callCount,
    mergeRes, Config.resMask]

/-- The idle block with a request pending meets the invariant. -/
theorem pending_invariant : Invariant { ready with host := [request 14 0] } := by
  simp [Invariant, PhaseLegal, RegistersLive, DatapathDead, ResponseLegal, LegacyLegal, ready, State.reset]

theorem witness_PhaseAdvancesInThreeWays :
    (Invariant { ready with host := [request 14 0] } ∧ ∃ t, step { ready with host := [request 14 0] } = .next t) ∧
      (Invariant { mid .rdt 1 [] with cmd := some 0xF3 } ∧ ∃ t, step { mid .rdt 1 [] with cmd := some 0xF3 } = .next t) :=
  ⟨⟨pending_invariant, _, rfl⟩, mid_rdt_invariant, _, rfl⟩

/-- The first call of INIT, the second of RDT, the last of SETRES. -/
theorem witness_CallsFollowCallList :
    (Invariant (onDev (mid init0 0 [])) ∧ (onDev (mid init0 0 [])).ph = .run init0 0 ∧
      ∃ t, exec init0 (onDev (mid init0 0 [])) = .next t) ∧
    (Invariant { mid .rdt 1 [] with cmd := some 0xF3 } ∧ (mid .rdt 1 []).ph = .run .rdt 1 ∧
      ∃ t, exec .rdt { mid .rdt 1 [] with cmd := some 0xF3 } = .next t) ∧
    ∃ s t, Invariant s ∧ s.ph = .run (.setres 0x81) 2 ∧ exec (.setres 0x81) s = .next t :=
  ⟨⟨mid_init_invariant, rfl, _, rfl⟩, ⟨mid_rdt_invariant, rfl, _, rfl⟩, _, _, mid_setres_invariant, rfl, rfl⟩

/-- The trigger of RDH, the write of SETRES, and the reset command of INIT, each timed out. -/
theorem witness_FailedGateEndsOperation :
    (∃ s s', RegistersLive s ∧ s.ph = .run .rdh 0 ∧ callTxn .rdh 0 s = some (tWrite [0xF5]) ∧ s.bh = some bus0 ∧
      askExec (tWrite [0xF5]) s = .ok (.timeout, [], s')) ∧
    (∃ s s', RegistersLive s ∧ s.ph = .run (.setres 0x81) 2 ∧
      callTxn (.setres 0x81) 2 s = some (tWrite [0xE6, 0x87]) ∧ s.bh = some bus0 ∧
      askExec (tWrite [0xE6, 0x87]) s = .ok (.timeout, [], s')) ∧
    (∃ s s', RegistersLive s ∧ s.ph = .run init0 3 ∧ callTxn init0 3 s = some (tWrite [0xFE]) ∧ s.bh = some bus0 ∧
      askExec (tWrite [0xFE]) s = .ok (.timeout, [], s')) ∧
    BusResult.timeout ≠ .ok := by
  refine ⟨⟨{ mid .rdh 0 [.exec .timeout []] with cmd := some 0xF5 }, _, ?_, rfl, rfl, rfl, rfl⟩,
    ⟨{ mid (.setres 0x81) 2 [.exec .timeout []] with resv := some 0x81, regv := some 0x06, merge := some 0x87 }, _, ?_,
      rfl, rfl, rfl, rfl⟩, ⟨mid init0 3 [.exec .timeout []], _, ?_, rfl, rfl, rfl, rfl⟩, by decide⟩
  · simp [RegistersLive, MeasurementLive, mid]
  · simp [RegistersLive, mid, mergeRes, Config.resMask]
  · simp [RegistersLive, mid, init0, ready]

theorem witness_UnwrittenHandleFault :
    let s := { State.reset with ph := .run .rdt 0, cmd := some 0xF3 }
    RegistersLive s ∧ s.ph = .run .rdt 0 ∧ callTxn .rdt 0 s = some (tWrite [0xF3]) ∧ s.bh = none :=
  ⟨by simp [RegistersLive, MeasurementLive], rfl, rfl, rfl⟩

theorem witness_StepRunsDecodedInstruction :
    ({ ready with wire := [[0xE6, 0x83], [0xFE]] }.wire = [0xE6, 0x83] :: [[0xFE]] ∧
      decode (.wire [0xE6, 0x83]) = .ok (.wWrUreg 0x83)) ∧
    ((mid .rdt 1 []).wire = [] ∧ (mid .rdt 1 []).ph = .run .rdt 1) ∧
    (ready.wire = [] ∧ ready.ph = .idle ∧ { ready with host := [request 12 0x81] }.host = request 12 0x81 :: [] ∧
      decode (.host (request 12 0x81)) = .ok (.setres 0x81)) ∧
    (ready.wire = [] ∧ ready.ph = .idle ∧ ready.host = []) := by
  refine ⟨⟨rfl, rfl⟩, ⟨rfl, rfl⟩, ⟨rfl, rfl, rfl, rfl⟩, rfl, rfl, rfl⟩

theorem witness_ReservedEncodingsRejected :
    (ready.wire = [] ∧ ready.ph = .idle ∧
      { ready with host := [request 15 0] }.host = { op := 15, ports := Ports.zero } :: []) ∧
    (0xE4 : Byte) ∉ commandBytes ∧ (0x00 : Byte) ∉ commandBytes ∧ (0xFF : Byte) ∉ commandBytes := by
  refine ⟨⟨rfl, rfl, rfl⟩, by decide, by decide, by decide⟩

/-- A measurement before its trigger meets the invariant, whatever is decided. -/
theorem mid_rdt_start_invariant (as : List Answer) : Invariant { mid .rdt 0 as with cmd := some 0xF3 } := by
  simp [Invariant, PhaseLegal, RegistersLive, MeasurementLive, ResponseLegal, LegacyLegal, mid, ready, State.reset,
    callCount]

/-- The responder; the oracle with a frame that fails its check; with a failure; and with nothing decided. -/
theorem witness_EveryOperationEnds :
    (Invariant (onDev (mid init0 0 [])) ∧ (onDev (mid init0 0 [])).ph = .run init0 0 ∧
      (onDev (mid init0 0 [])).bh ≠ none ∧ (onDev (mid init0 0 [])).wire = [] ∧
      (onDev (mid init0 0 [])).link = .responder) ∧
    (∀ as, Invariant { mid .rdt 0 as with cmd := some 0xF3 } ∧ (mid .rdt 0 as).ph = .run .rdt 0 ∧
      (mid .rdt 0 as).bh ≠ none ∧ (mid .rdt 0 as).wire = []) ∧
    AnswersFit (callsLeft .rdt 0) [.exec .ok [], .exec .ok [0xFF, 0xFF, 0xFF], .alien 6] ∧
    AnswersFit (callsLeft .rdt 0) [.exec .timeout [0x01]] ∧ AnswersFit (callsLeft .rdt 0) [] ∧
    AnswersFit (callsLeft init0 0) [.ack true, .ack false] := by
  refine ⟨⟨mid_init_invariant, rfl, by decide, rfl, rfl⟩,
    fun as => ⟨mid_rdt_start_invariant as, rfl, by simp [mid, ready], rfl⟩, ?_, ?_, ?_, ?_⟩ <;>
    simp [AnswersFit, callsLeft, callCount, callKind, init0, List.range']

/-- An answer of another call's type does not fit, and a byte too few does not. -/
theorem test_answers_that_do_not_fit :
    ¬ AnswersFit (callsLeft .rdur 1) [.exec .ok []] ∧ ¬ AnswersFit (callsLeft init0 1) [.exec .ok []] ∧
      ¬ AnswersFit (callsLeft .srst 0) [.ack true] := by
  refine ⟨?_, ?_, ?_⟩ <;> simp [AnswersFit, callsLeft, callCount, callKind, init0, List.range']

theorem witness_StatusWithinOperationsRow :
    (Instr.isHost (.crcchk 0 0) = true ∧ ∃ t, exec (.crcchk 0 0) ready = .next t ∧ t.ph = .idle) ∧
      (Instr.isHost .srst = true ∧ ∃ t, exec .srst (mid .srst 1 []) = .next t ∧ t.ph = .idle) :=
  ⟨⟨rfl, _, rfl, rfl⟩, rfl, _, rfl, rfl⟩

/-- A pure operation, an acceptance, a call, a wire command, and the instructions each clause exempts. -/
theorem witness_ExecFrame :
    (∃ t, exec (.crcchk 0 0) ready = .next t) ∧ (∃ t, exec init0 ready = .next t) ∧
      (∃ t, exec .srst (mid .srst 1 []) = .next t) ∧ (∃ t, exec .rdt (mid .rdt 1 []) = .next t) ∧
      (∃ t, exec .wSrst ready = .next t ∧ Instr.isHost .wSrst = false) :=
  ⟨⟨_, rfl⟩, ⟨_, rfl⟩, ⟨_, rfl⟩, ⟨_, rfl⟩, _, rfl, rfl⟩

theorem is_rdt : IsMeasurement .rdt 0xF3 convT := .inl ⟨rfl, rfl, rfl⟩
theorem is_rdh : IsMeasurement .rdh 0xF5 (fun _ raw => convH raw) := .inr ⟨rfl, rfl, rfl⟩

/-- The trigger answered, and failed. -/
theorem witness_MeasurementTriggers :
    (∃ s s', IsMeasurement .rdt 0xF3 convT ∧ s.ph = .run .rdt 0 ∧ s.cmd = some 0xF3 ∧ s.bh = some bus0 ∧
      askExec [.start, .addr 0x40 .write, .wbyte 0xF3, .stop] s = .ok (.ok, [], s')) ∧
    (∃ s s', IsMeasurement .rdh 0xF5 (fun _ raw => convH raw) ∧ s.ph = .run .rdh 0 ∧ s.cmd = some 0xF5 ∧
      s.bh = some bus0 ∧ askExec [.start, .addr 0x40 .write, .wbyte 0xF5, .stop] s = .ok (.timeout, [], s')) :=
  ⟨⟨{ mid .rdt 0 [.exec .ok []] with cmd := some 0xF3 }, _, is_rdt, rfl, rfl, rfl, rfl⟩,
    ⟨{ mid .rdh 0 [.exec .timeout []] with cmd := some 0xF5 }, _, is_rdh, rfl, rfl, rfl, rfl⟩⟩

theorem witness_MeasurementWaits :
    (IsMeasurement .rdt 0xF3 convT ∧ (mid .rdt 1 []).ph = .run .rdt 1) ∧
      (IsMeasurement .rdh 0xF5 (fun _ raw => convH raw) ∧ (mid .rdh 1 []).ph = .run .rdh 1) :=
  ⟨⟨is_rdt, rfl⟩, is_rdh, rfl⟩

/-- A frame that passes, and one that fails by one bit. -/
theorem witness_MeasurementReadsAndChecks :
    (∃ s', IsMeasurement .rdt 0xF3 convT ∧ (mid .rdt 2 frameOk).ph = .run .rdt 2 ∧ (mid .rdt 2 frameOk).bh = some bus0 ∧
      askExec [.start, .addr 0x40 .read, .rbyte .ack, .rbyte .ack, .rbyte .nack, .stop] (mid .rdt 2 frameOk) =
        .ok (.ok, [0x68, 0x3A, 0x7C], s') ∧ isCrcValid ((0x68 : Byte) ++ (0x3A : Byte)) 0x7C = true) ∧
    (∃ s', IsMeasurement .rdh 0xF5 (fun _ raw => convH raw) ∧
      (mid .rdh 2 [.exec .ok [0x4E, 0x85, 0x6A]]).ph = .run .rdh 2 ∧
      askExec [.start, .addr 0x40 .read, .rbyte .ack, .rbyte .ack, .rbyte .nack, .stop]
        (mid .rdh 2 [.exec .ok [0x4E, 0x85, 0x6A]]) = .ok (.ok, [0x4E, 0x85, 0x6A], s') ∧
      isCrcValid ((0x4E : Byte) ++ (0x85 : Byte)) 0x6A = false) :=
  ⟨⟨_, is_rdt, rfl, rfl, rfl, by decide +kernel⟩, ⟨_, is_rdh, rfl, rfl, by decide +kernel⟩⟩

theorem witness_MismatchPolicyDecides :
    let s := { mid .rdh 3 [] with raw := some 0x4E85, cks := some 0x6A }
    let u := { s with cfg := { s.cfg with crcPolicy := .warnAndProceed } }
    IsMeasurement .rdh 0xF5 (fun _ raw => convH raw) ∧
      (s.ph = .run .rdh 3 ∧ s.raw = some 0x4E85 ∧ s.cks = some 0x6A ∧ s.cfg.crcPolicy = .enforce) ∧
      (u.ph = .run .rdh 3 ∧ u.raw = some 0x4E85 ∧ u.cks = some 0x6A ∧ u.cfg.crcPolicy = .warnAndProceed) :=
  ⟨is_rdh, ⟨rfl, rfl, rfl, rfl⟩, rfl, rfl, rfl, rfl⟩

theorem frameOk_ends : ∃ t, exec .rdt (mid .rdt 2 frameOk) = .next t ∧ t.ph = .idle ∧ t.status = some .ok := by
  have h : (nextState (exec .rdt (mid .rdt 2 frameOk))).map (fun t => (t.ph, t.status)) = some (.idle, some .ok) := by
    decide +kernel
  cases he : exec .rdt (mid .rdt 2 frameOk) with
  | next t => exact ⟨t, rfl, by simp_all [nextState]⟩
  | fault r => simp [he, nextState] at h
  | refused r => simp [he, nextState] at h

theorem witness_EnforcedValueHasPassedCheck :
    (Instr.rdt = .rdt ∨ Instr.rdt = .rdh) ∧ (mid .rdt 2 frameOk).cfg.crcPolicy = .enforce ∧
      ∃ t, exec .rdt (mid .rdt 2 frameOk) = .next t ∧ t.ph = .idle ∧ t.status = some .ok :=
  ⟨.inl rfl, rfl, frameOk_ends⟩

/-- RDT with the frame of V 2.6, row 1, and RDH with that of row 2. -/
theorem witness_MeasurementFromRequestToValue :
    (let s := { ready with host := [request 7 0], answers := .exec .ok [] :: frameOk }
    IsMeasurement .rdt 0xF3 convT ∧ s.ph = .idle ∧ s.wire = [] ∧ s.host = request 7 0 :: [] ∧
      decode (.host (request 7 0)) = .ok .rdt ∧ s.bh = some bus0 ∧ s.link = .oracle ∧
      s.answers = .exec .ok [] :: .exec .ok [0x68, 0x3A, 0x7C] :: [] ∧
      isCrcValid ((0x68 : Byte) ++ (0x3A : Byte)) 0x7C = true) ∧
    (let s := { ready with host := [request 8 0], answers := [.exec .ok [], .exec .ok [0x4E, 0x85, 0x6B]] }
    IsMeasurement .rdh 0xF5 (fun _ raw => convH raw) ∧ s.ph = .idle ∧ s.wire = [] ∧ s.host = request 8 0 :: [] ∧
      decode (.host (request 8 0)) = .ok .rdh ∧ s.bh = some bus0 ∧ s.link = .oracle ∧
      s.answers = .exec .ok [] :: .exec .ok [0x4E, 0x85, 0x6B] :: [] ∧
      isCrcValid ((0x4E : Byte) ++ (0x85 : Byte)) 0x6B = true) :=
  ⟨⟨is_rdt, rfl, rfl, rfl, rfl, rfl, rfl, rfl, by decide +kernel⟩,
    is_rdh, rfl, rfl, rfl, rfl, rfl, rfl, rfl, by decide +kernel⟩

/-- A failed end and an end with a value. -/
theorem witness_LegacyViewShowsSentinels :
    (∃ s t : State, IsMeasurement .rdh 0xF5 (fun _ raw => convH raw) ∧
      exec .rdh { s with cfg := { s.cfg with legacyView := false } } = .next t ∧ t.ph = .idle) ∧
    (IsMeasurement .rdt 0xF3 convT ∧
      ∃ t, exec .rdt { mid .rdt 2 frameOk with cfg := { (mid .rdt 2 frameOk).cfg with legacyView := false } } = .next t ∧
        t.ph = .idle) := by
  obtain ⟨t, h1, h2, -⟩ := frameOk_ends
  exact ⟨⟨{ mid .rdh 3 [] with raw := some 0x4E85, cks := some 0x6A }, _, is_rdh, rfl, rfl⟩, is_rdt, t, h1, h2⟩

theorem witness_RdurReadsOneByte :
    (∃ s s', s.bh = some bus0 ∧ s.ph = .run .rdur 0 ∧
      askExec [.start, .addr 0x40 .write, .wbyte 0xE7, .stop] s = .ok (.ok, [], s')) ∧
    (∃ s s', s.bh = some bus0 ∧ s.ph = .run .rdur 1 ∧
      askExec [.start, .addr 0x40 .read, .rbyte .nack, .stop] s = .ok (.ok, [0xFF], s')) ∧
    (∃ s s', s.bh = some bus0 ∧ s.ph = .run .rdur 1 ∧
      askExec [.start, .addr 0x40 .read, .rbyte .nack, .stop] s = .ok (.timeout, [], s')) :=
  ⟨⟨mid .rdur 0 [.exec .ok []], _, rfl, rfl, rfl⟩, ⟨mid .rdur 1 [.exec .ok [0xFF]], _, rfl, rfl, rfl⟩,
    mid .rdur 1 [.exec .timeout []], _, rfl, rfl, rfl⟩

theorem witness_WrurWritesWholeByte :
    (∃ s s', s.bh = some bus0 ∧ s.ph = .run (.wrur 0xFF) 0 ∧
      askExec [.start, .addr 0x40 .write, .wbyte 0xE6, .wbyte 0xFF, .stop] s = .ok (.ok, [], s')) ∧
    (∃ s s', s.bh = some bus0 ∧ s.ph = .run (.wrur 0x00) 0 ∧
      askExec [.start, .addr 0x40 .write, .wbyte 0xE6, .wbyte 0x00, .stop] s = .ok (.transactionFailed, [], s')) :=
  ⟨⟨mid (.wrur 0xFF) 0 [.exec .ok []], _, rfl, rfl, rfl⟩,
    mid (.wrur 0x00) 0 [.exec .transactionFailed []], _, rfl, rfl, rfl⟩

theorem witness_GetresReturnsResolutionBits :
    (∃ s s', s.bh = some bus0 ∧ s.ph = .run .getres 0 ∧
      askExec [.start, .addr 0x40 .write, .wbyte 0xE7, .stop] s = .ok (.ok, [], s')) ∧
    (∃ s s', s.bh = some bus0 ∧ s.ph = .run .getres 1 ∧
      askExec [.start, .addr 0x40 .read, .rbyte .nack, .stop] s = .ok (.ok, [0x83], s')) ∧
    (∃ s s', s.bh = some bus0 ∧ s.ph = .run .getres 1 ∧
      askExec [.start, .addr 0x40 .read, .rbyte .nack, .stop] s = .ok (.invalidArgument, [], s')) :=
  ⟨⟨mid .getres 0 [.exec .ok []], _, rfl, rfl, rfl⟩, ⟨mid .getres 1 [.exec .ok [0x83]], _, rfl, rfl, rfl⟩,
    mid .getres 1 [.exec .invalidArgument []], _, rfl, rfl, rfl⟩

/-- The redundant write of V 2.7. -/
theorem witness_SetresFromRequestToMergedWrite :
    let s := { ready with host := [request 12 0x81], answers := [.exec .ok [], .exec .ok [0x83], .exec .ok []] }
    s.ph = .idle ∧ s.wire = [] ∧ s.host = request 12 0x81 :: [] ∧
      decode (.host (request 12 0x81)) = .ok (.setres 0x81) ∧ s.bh = some bus0 ∧ s.link = .oracle ∧
      s.answers = .exec .ok [] :: .exec .ok [0x83] :: .exec .ok [] :: [] :=
  ⟨rfl, rfl, rfl, rfl, rfl, rfl, rfl⟩

theorem witness_SetresCallsEachComplete :
    (∃ s s', s.bh = some bus0 ∧ s.ph = .run (.setres 0xFF) 1 ∧ s.resv = some 0xFF ∧
      askExec [.start, .addr 0x40 .read, .rbyte .nack, .stop] s = .ok (.ok, [0x3A], s')) ∧
    (∃ s s', s.bh = some bus0 ∧ s.ph = .run (.setres 0xFF) 2 ∧ s.merge = some 0xBB ∧
      askExec [.start, .addr 0x40 .write, .wbyte 0xE6, .wbyte 0xBB, .stop] s = .ok (.ok, [], s')) :=
  ⟨⟨{ mid (.setres 0xFF) 1 [.exec .ok [0x3A]] with resv := some 0xFF }, _, rfl, rfl, rfl, rfl⟩,
    { mid (.setres 0xFF) 2 [.exec .ok []] with merge := some 0xBB }, _, rfl, rfl, rfl, rfl⟩

/-- V 2.8, row 1. -/
theorem witness_InitFromRequestToReady :
    let q : HostRequest := { op := 13, ports := { Ports.zero with
      dataPin := p21, clockPin := p22, dataPullup := true, clockPullup := true } }
    let s := { State.reset with
      host := [q], answers := [.ack true, .ack true, .exec .ok [], .exec .ok []] }
    s.ph = .idle ∧ s.wire = [] ∧ s.host = q :: [] ∧ decode (.host q) = .ok (.init bus0 p21 p22 true true) ∧
      s.link = .oracle ∧ s.answers = .ack true :: .ack true :: .exec .ok [] :: .exec .ok [] :: [] :=
  ⟨rfl, rfl, rfl, rfl, rfl, rfl⟩

/-- Each of the three gates, failed; and the last one passed. -/
theorem witness_InitGatesMapToTheirStatus :
    (∃ s s', s.ph = .run init0 0 ∧ askAck (fun d => (true, d)) s = .ok (false, s')) ∧
    (∃ s s', s.ph = .run init0 1 ∧ askAck devInstall s = .ok (false, s')) ∧
    (∃ s s', s.ph = .run init0 2 ∧ s.bh = some bus0 ∧
      askExec [.start, .addr 0x40 .write, .stop] s = .ok (.timeout, [], s')) ∧
    (∃ s s', s.ph = .run init0 2 ∧ s.bh = some bus0 ∧
      askExec [.start, .addr 0x40 .write, .stop] s = .ok (.ok, [], s')) :=
  ⟨⟨mid init0 0 [.ack false], _, rfl, rfl⟩, ⟨mid init0 1 [.ack false], _, rfl, rfl⟩,
    ⟨mid init0 2 [.exec .timeout []], _, rfl, rfl, rfl⟩, mid init0 2 [.exec .ok []], _, rfl, rfl, rfl⟩

/-- Both operations, both calls, success and failure. -/
theorem witness_ResetSettlesOnlyAfterSuccess :
    (∃ b' dp cp dpu cpu, init0 = .init b' dp cp dpu cpu) ∧
    (∃ s s', s.ph = .run .srst 0 ∧ s.bh = some bus0 ∧
      askExec [.start, .addr 0x40 .write, .wbyte 0xFE, .stop] s = .ok (.ok, [], s')) ∧
    (∃ s s', s.ph = .run init0 3 ∧ s.bh = some bus0 ∧
      askExec [.start, .addr 0x40 .write, .wbyte 0xFE, .stop] s = .ok (.transactionFailed, [], s')) ∧
    (mid .srst 1 []).ph = .run .srst (0 + 1) ∧ (mid init0 4 []).ph = .run init0 (3 + 1) :=
  ⟨⟨_, _, _, _, _, rfl⟩, ⟨mid .srst 0 [.exec .ok []], _, rfl, rfl, rfl⟩,
    ⟨mid init0 3 [.exec .transactionFailed []], _, rfl, rfl, rfl⟩, rfl, rfl⟩

theorem witness_WireCommandsActOnDevice :
    (ready.dev.present = true ∧ ready.dev.rebooting = false) ∧
      { ready.dev with present := false }.present = false ∧ { ready.dev with rebooting := true }.rebooting = true := by
  decide

theorem witness_SetresOverwritesForeignWrite :
    let s := { onDev (mid (.setres 0x81) 2 []) with
      resv := some 0x81, regv := some 0x06, merge := some 0x87, wire := [[0xE6, 0x83]] }
    RegistersLive s ∧ s.ph = .run (.setres 0x81) 2 ∧ s.bh = some bus0 ∧ s.link = .responder ∧
      s.dev.installed = true ∧ s.dev.present = true ∧ s.dev.rebooting = false ∧ s.wire = [[0xE6, 0x83]] :=
  ⟨by simp [RegistersLive, onDev, mid, mergeRes, Config.resMask], rfl, rfl, rfl, rfl, rfl, rfl, rfl⟩

/-- At 50 ms, for either measurement; at 49 ms; and with nothing pending. -/
theorem witness_ResponderFramePassesCheck :
    let d := { devUp with pend := .temperature, elapsedMs := 50 }
    let e := { devUp with pend := .humidity, elapsedMs := 50 }
    d.installed = true ∧ d.present = true ∧ d.rebooting = false ∧
      (d.pend = .temperature ∧ 0x6838 = d.measT ∧ 50 ≤ d.elapsedMs) ∧
      (e.pend = .humidity ∧ 0x4E84 = e.measH ∧ 50 ≤ e.elapsedMs) ∧
      { d with elapsedMs := 49 }.elapsedMs < 50 ∧ devUp.pend = .none := by decide

/-- Ready, with the register not selected; not installed; installed and absent; installed and rebooting. -/
theorem witness_ResponderReadsBackWrittenRegister :
    (devUp.installed = true ∧ devUp.present = true ∧ devUp.rebooting = false ∧ devUp.selUr = false) ∧
      Dev.start.installed = false ∧ { devUp with present := false }.present = false ∧
      { devUp with rebooting := true }.rebooting = true := by decide

/-- For BusExec: an answer that fits, a failure, a byte too few, an answer of another call, an outcome outside the five, and
none. For BusConfig and BusInstall: an answer that fits, two that do not, none; and a responder installed and not. -/
theorem witness_TransportAnswersAreTaken :
    ready.link = .oracle ∧ [0x06].length = rbyteCount (tRead 1) ∧ BusResult.timeout ≠ .ok ∧
      ([] : List Byte).length ≠ rbyteCount (tRead 1) ∧ (mid .rdur 1 [.ack true]).answers = .ack true :: [] ∧
      (mid .rdur 1 [.alien 6]).answers = .alien 6 :: [] ∧ (mid init0 0 [.exec .ok []]).answers = .exec .ok [] :: [] ∧
      ready.answers = [] ∧ (onDev ready).link = .responder ∧ (onDev ready).dev.installed = true ∧
      ready.dev.installed = false := by decide

theorem witness_DecodedFrameIsEncoded :
    decode (.wire [0xE6, 0x83]) = .ok (.wWrUreg 0x83) ∧ decode (.host (request 10 0x83)) = .ok (.wrur 0x83) :=
  ⟨rfl, rfl⟩

theorem witness_StepKeepsInvariant :
    (Invariant { mid .rdt 1 [] with cmd := some 0xF3 } ∧ ∃ t, step { mid .rdt 1 [] with cmd := some 0xF3 } = .next t) ∧
      ∃ s t, Invariant s ∧ s.ph = .run (.setres 0x81) 2 ∧ step s = .next t :=
  ⟨⟨mid_rdt_invariant, _, rfl⟩, _, _, mid_setres_invariant, rfl, rfl⟩

theorem witness_InvariantExcludesDeadReads :
    Invariant { mid .rdt 1 [] with cmd := some 0xF3 } ∧ Invariant (onDev (mid init0 0 [])) :=
  ⟨mid_rdt_invariant, mid_init_invariant⟩

/-- The names as they are, and two bus names exchanged with the pins moved up. -/
theorem witness_BusAndPinNamesAreOpaque :
    Function.Injective (id : BusId → BusId) ∧ Function.Injective (id : Pin → Pin) ∧
      Function.Injective (fun b : BusId => { id := if b.id = 0 then 1 else if b.id = 1 then 0 else b.id : BusId }) ∧
      Function.Injective (fun p : Pin => { id := p.id + 1 : Pin }) := by
  refine ⟨Function.injective_id, Function.injective_id, ?_, ?_⟩
  · rintro ⟨a⟩ ⟨b⟩ h
    simp only [BusId.mk.injEq] at h ⊢
    split_ifs at h <;> omega
  · rintro ⟨a⟩ ⟨b⟩ h
    simpa using h

end Sys2Proof.Tests
end

section
/-! Which instruction a step runs (R12, R32), and that no step looks into a bus or pin name (R6, R88): each shared operation
of the model commutes with a renaming of the names, so every instruction does, and so does the step. -/

namespace Sys2Proof.Machine

section StepRuns

variable {s : State} {i : Instr}

theorem fetchFrame_decoded {fr : Frame} (h : decode fr = .ok i) (s : State) : fetchFrame fr s = .instr i s := by
  simp [fetchFrame, h]

theorem fetch_foreign_frame {bs : List Byte} {rest : List (List Byte)} (hw : s.wire = bs :: rest) :
    fetch s = fetchFrame (.wire bs) { s with wire := rest } := by
  simp [fetch, hw]

theorem fetch_running {k : Nat} (hw : s.wire = []) (hp : s.ph = .run i k) : fetch s = .instr i s := by
  simp [fetch, hw, hp]

theorem fetch_request {r : HostRequest} {rest : List HostRequest} (hw : s.wire = []) (hp : s.ph = .idle)
    (hh : s.host = r :: rest) : fetch s = fetchFrame (.host r) { s with host := rest } := by
  simp [fetch, hw, hp, hh]

theorem fetch_nothing (hw : s.wire = []) (hp : s.ph = .idle) (hh : s.host = []) : fetch s = .nothing := by
  simp [fetch, hw, hp, hh]

theorem step_fetched {t : State} (h : fetch s = .instr i t) : step s = exec i t := by
  simp [step, h]

theorem step_nothing (h : fetch s = .nothing) : step s = .next s := by
  simp [step, h]

end StepRuns

/-- Settles O24: each clause is one branch of `fetch`. -/
theorem stepRunsDecodedInstruction : Obligations.StepRunsDecodedInstruction := by
  refine ⟨?_, ?_, ?_, ?_⟩
  · intro s bs rest i hw hd
    exact step_fetched ((fetch_foreign_frame hw).trans (fetchFrame_decoded hd _))
  · intro s i k hw hp
    exact step_fetched (fetch_running hw hp)
  · intro s r rest i hw hp hh hd
    exact step_fetched ((fetch_request hw hp hh).trans (fetchFrame_decoded hd _))
  · intro s hw hp hh
    exact step_nothing (fetch_nothing hw hp hh)

section Renaming

variable {f : BusId → BusId} {g : Pin → Pin}

/-- A meaning `m'` answers on a renamed state what `m` answers on the state, renamed. -/
def Renames (f : BusId → BusId) (g : Pin → Pin) (m m' : State → Out) : Prop :=
  ∀ s, m' (renameState f g s) = mapNext (renameState f g) (m s)

/-! What a renaming does to each field of the state. -/

@[simp] theorem renameState_bh (s : State) : (renameState f g s).bh = s.bh.map f := rfl
@[simp] theorem renameState_ph (s : State) : (renameState f g s).ph = renamePhase f g s.ph := rfl
@[simp] theorem renameState_host (s : State) : (renameState f g s).host = s.host.map (renameRequest f g) := rfl
@[simp] theorem renameState_cmd (s : State) : (renameState f g s).cmd = s.cmd := rfl
@[simp] theorem renameState_raw (s : State) : (renameState f g s).raw = s.raw := rfl
@[simp] theorem renameState_cks (s : State) : (renameState f g s).cks = s.cks := rfl
@[simp] theorem renameState_resv (s : State) : (renameState f g s).resv = s.resv := rfl
@[simp] theorem renameState_merge (s : State) : (renameState f g s).merge = s.merge := rfl
@[simp] theorem renameState_cfg (s : State) : (renameState f g s).cfg = s.cfg := rfl
@[simp] theorem renameState_wire (s : State) : (renameState f g s).wire = s.wire := rfl
@[simp] theorem renameState_link (s : State) : (renameState f g s).link = s.link := rfl
@[simp] theorem renameState_answers (s : State) : (renameState f g s).answers = s.answers := rfl

/-! Each update of the state commutes with a renaming. -/

theorem record_renamed (e : Event) (s : State) :
    record (renameEvent f g e) (renameState f g s) = renameState f g (record e s) := by
  simp [record, renameState]

theorem delay_renamed (ms : Nat) (s : State) : delay ms (renameState f g s) = renameState f g (delay ms s) :=
  record_renamed (.delay ms) { s with dev := devDelay ms s.dev }

theorem advance_renamed (s : State) : advance (renameState f g s) = renameState f g (advance s) := by
  cases hp : s.ph <;> simp [advance, renameState, hp, renamePhase]

theorem legacyView_renamed (conv : Rounding → Raw16 → F32) (st : Status) (v : Option Raw16) (s : State) :
    legacyView conv st v (renameState f g s) = renameState f g (legacyView conv st v s) := by
  unfold legacyView
  by_cases h : s.cfg.legacyView = true <;> simp [h, renameState]

theorem takeFrame_renamed (b0 b1 b2 : Byte) (s : State) :
    takeFrame b0 b1 b2 (renameState f g s) = renameState f g (takeFrame b0 b1 b2 s) := rfl

/-! The ends of an operation. -/

theorem raise_renames (st : Status) : Renames f g (raise st) (raise st) := fun _ => rfl

theorem returnOk_renames (v : Option Value) : Renames f g (returnOk v) (returnOk v) := fun _ => rfl

theorem returnAny_renames : Renames f g returnAny returnAny := fun _ => rfl

theorem fault_renames (r : Fault) : Renames f g (fun _ => .fault r) (fun _ => .fault r) := fun _ => rfl

theorem refused_renames (r : Refusal) : Renames f g (fun _ => .refused r) (fun _ => .refused r) := fun _ => rfl

theorem advance_renames : Renames f g (fun s => .next (advance s)) (fun s => .next (advance s)) := fun s =>
  congrArg Host.Outcome.next (advance_renamed s)

theorem endMeasurement_renames (conv : Rounding → Raw16 → F32) (st : Status) (v : Option Raw16) :
    Renames f g (endMeasurement conv st v) (endMeasurement conv st v) := fun s =>
  congrArg Host.Outcome.next (legacyView_renamed conv st v (finish st (v.map .u16) s))

/-- A call is put into the trace with its names renamed, and what follows goes on from there. -/
theorem record_then_renames (e : Event) {m : State → Out} (hm : Renames f g m m) :
    Renames f g (fun s => m (record e s)) (fun s => m (record (renameEvent f g e) s)) := fun s =>
  (congrArg m (record_renamed e s)).trans (hm _)

/-! The shared operations, whose continuations rename. -/

theorem gate_renames (r : BusResult) {onFail : Status → State → Out} {goOn : State → Out}
    (hf : ∀ st, Renames f g (onFail st) (onFail st)) (hg : Renames f g goOn goOn) :
    Renames f g (fun s => gate r onFail s goOn) (fun s => gate r onFail s goOn) := by
  intro s
  by_cases hr : r = .ok
  · subst hr; simpa only [gate_ok] using hg s
  · simpa only [gate_failed hr] using hf (statusOf r) s

theorem readReg_renames {α : Type} {reg : State → Option α} (hreg : ∀ s, reg (renameState f g s) = reg s)
    {k : α → State → Out} (hk : ∀ v, Renames f g (k v) (k v)) :
    Renames f g (fun s => readReg (reg s) fun v => k v s) (fun s => readReg (reg s) fun v => k v s) := by
  intro s
  simp only [hreg]
  cases reg s with
  | none => rfl
  | some v => exact hk v s

theorem askAck_renamed (ofDev : Dev → Bool × Dev) (s : State) :
    askAck ofDev (renameState f g s) = (askAck ofDev s).map fun a => (a.1, renameState f g a.2) := by
  unfold askAck
  simp only [renameState_link, renameState_answers]
  split
  · split <;> rfl
  · rfl

theorem askExec_renamed (t : Txn) (s : State) :
    askExec t (renameState f g s) = (askExec t s).map fun a => (a.1, a.2.1, renameState f g a.2.2) := by
  unfold askExec
  simp only [renameState_link, renameState_answers]
  split
  · split
    · rfl
    · split
      · split <;> rfl
      · rfl
    · rfl
  · rfl

theorem busConfig_renames (b : BusId) (dp cp : Pin) (dpu cpu : Bool) {k : Bool → State → Out}
    (hk : ∀ ok, Renames f g (k ok) (k ok)) :
    Renames f g (fun s => busConfig b dp cp dpu cpu s k) (fun s => busConfig (f b) (g dp) (g cp) dpu cpu s k) := by
  intro s
  simp only [busConfig, askAck_renamed]
  cases askAck (fun d => (true, d)) s with
  | error r => rfl
  | ok a => exact record_then_renames (.busConfig b dp cp dpu cpu true Config.busClkHz a.1) (hk a.1) a.2

theorem busInstall_renames (b : BusId) {k : Bool → State → Out} (hk : ∀ ok, Renames f g (k ok) (k ok)) :
    Renames f g (fun s => busInstall b s k) (fun s => busInstall (f b) s k) := by
  intro s
  simp only [busInstall, askAck_renamed]
  cases askAck devInstall s with
  | error r => rfl
  | ok a => exact record_then_renames (.busInstall b a.1) (hk a.1) a.2

theorem busExec_renames (t : Txn) {k : BusResult → List Byte → State → Out}
    (hk : ∀ r bs, Renames f g (k r bs) (k r bs)) :
    Renames f g (fun s => busExec t s k) (fun s => busExec t s k) := by
  intro s
  simp only [busExec, askExec_renamed, renameState_bh]
  cases s.bh with
  | none => rfl
  | some b =>
    cases askExec t s with
    | error r => rfl
    | ok a => exact record_then_renames (.busExec b t Config.tTmoMs a.1 a.2.1) (hk a.1 a.2.1) a.2.2

/-- A `BusExec` whose gate ends the operation with `raise`. -/
theorem busExec_raise_renames (t : Txn) {goOn : List Byte → State → Out} (hg : ∀ bs, Renames f g (goOn bs) (goOn bs)) :
    Renames f g (fun s => busExec t s fun r bs s => gate r raise s (goOn bs))
      (fun s => busExec t s fun r bs s => gate r raise s (goOn bs)) :=
  busExec_renames t fun r bs => gate_renames r raise_renames (hg bs)

theorem whenIdle_renames {body : State → Out} (hb : Renames f g body body) :
    Renames f g (whenIdle body) (whenIdle body) := by
  intro s
  cases hp : s.ph with
  | idle =>
    rw [whenIdle_idle hp, whenIdle_idle (by simp [hp, renamePhase])]
    exact hb s
  | run i k => simp [whenIdle, hp, renamePhase, mapNext]

theorem deviceTakes_renames (effect : Settings → Dev → Dev) :
    Renames f g (fun s => deviceTakes (effect s.cfg) s) (fun s => deviceTakes (effect s.cfg) s) := by
  intro s
  simp only [deviceTakes_eq]
  rfl

/-- An injective renaming keeps instructions apart: the only place where a step compares names. -/
theorem renameInstr_injective (hf : Function.Injective f) (hg : Function.Injective g) :
    Function.Injective (renameInstr f g) := by
  intro i j h
  cases i <;> cases j <;> simp_all [renameInstr, hf.eq_iff, hg.eq_iff]

theorem sequenced_renames (hf : Function.Injective f) (hg : Function.Injective g) (i : Instr)
    {start start' : State → State} {call call' : Nat → State → Out}
    (hs : ∀ s, start' (renameState f g s) = renameState f g (start s)) (hc : ∀ k, Renames f g (call k) (call' k)) :
    Renames f g (sequenced i start call) (sequenced (renameInstr f g i) start' call') := by
  intro s
  cases hp : s.ph with
  | idle =>
    rw [sequenced_idle hp, sequenced_idle (by simp [hp, renamePhase]), hs]
    rfl
  | run j k =>
    by_cases hj : j = i
    · subst hj
      rw [sequenced_run hp, sequenced_run (k := k) (by simp [hp, renamePhase])]
      exact hc k s
    · simp [sequenced, hp, renamePhase, (renameInstr_injective hf hg).eq_iff, hj, mapNext]

/-! The call lists. -/

theorem resetCall_renames : Renames f g resetCall resetCall :=
  busExec_raise_renames _ fun _ => advance_renames

theorem settleCall_renames : Renames f g settleCall settleCall := fun s =>
  (congrArg (returnOk none) (delay_renamed _ s)).trans (returnOk_renames none _)

theorem selectUregCall_renames : Renames f g selectUregCall selectUregCall :=
  busExec_raise_renames _ fun _ => advance_renames

theorem readUregCall_renames {use : Byte → State → Out} (hu : ∀ b, Renames f g (use b) (use b)) :
    Renames f g (readUregCall use) (readUregCall use) := by
  refine busExec_raise_renames _ fun bs s => ?_
  match bs with
  | [b] => exact hu b { s with regv := some b }
  | [] => rfl
  | _ :: _ :: _ => rfl

theorem writeUregCall_renames (v : Byte) : Renames f g (writeUregCall v) (writeUregCall v) :=
  busExec_raise_renames _ fun _ => returnOk_renames none

theorem srstCall_renames (k : Nat) : Renames f g (srstCall k) (srstCall k) :=
  match k with
  | 0 => resetCall_renames
  | 1 => settleCall_renames
  | _ + 2 => fault_renames _

theorem ackCall_renames {st : Status} (ok : Bool) :
    Renames f g (fun s => if ok then .next (advance s) else raise st s)
      (fun s => if ok then .next (advance s) else raise st s) :=
  match ok with
  | true => advance_renames
  | false => raise_renames st

theorem probeCall_renames :
    Renames f g (fun s => busExec tProbe s fun r _ s => if r = .ok then .next (advance s) else raise .notFoundError s)
      (fun s => busExec tProbe s fun r _ s => if r = .ok then .next (advance s) else raise .notFoundError s) :=
  busExec_renames _ fun r _ => gate_renames r (fun _ => raise_renames .notFoundError) advance_renames

theorem initCall_renames (b : BusId) (dp cp : Pin) (dpu cpu : Bool) (k : Nat) :
    Renames f g (initCall b dp cp dpu cpu k) (initCall (f b) (g dp) (g cp) dpu cpu k) :=
  match k with
  | 0 => busConfig_renames b dp cp dpu cpu ackCall_renames
  | 1 => busInstall_renames b ackCall_renames
  | 2 => probeCall_renames
  | 3 => resetCall_renames
  | 4 => settleCall_renames
  | _ + 5 => fault_renames _

theorem rdurCall_renames (k : Nat) : Renames f g (rdurCall k) (rdurCall k) :=
  match k with
  | 0 => selectUregCall_renames
  | 1 => readUregCall_renames fun b => returnOk_renames (some (.u8 b))
  | _ + 2 => fault_renames _

theorem wrurCall_renames (v : Byte) (k : Nat) : Renames f g (wrurCall v k) (wrurCall v k) :=
  match k with
  | 0 => writeUregCall_renames v
  | _ + 1 => fault_renames _

theorem getresCall_renames (k : Nat) : Renames f g (getresCall k) (getresCall k) :=
  match k with
  | 0 => selectUregCall_renames
  | 1 => readUregCall_renames fun b => returnOk_renames (some (.u8 (resBits b)))
  | _ + 2 => fault_renames _

theorem setresCall_renames (k : Nat) : Renames f g (setresCall k) (setresCall k) :=
  match k with
  | 0 => selectUregCall_renames
  | 1 => readUregCall_renames fun b =>
      readReg_renames (k := fun r s => .next (advance { s with merge := some (mergeRes b r) })) renameState_resv
        fun r s => advance_renames { s with merge := some (mergeRes b r) }
  | 2 => readReg_renames renameState_merge writeUregCall_renames
  | _ + 3 => fault_renames _

/-- The read of a measurement (R161, R163): the frame decides between the end and the diagnostic. -/
theorem readFrameCall_renames (conv : Rounding → Raw16 → F32) :
    Renames f g (rdvalCall conv 2) (rdvalCall conv 2) := by
  unfold rdvalCall
  refine busExec_renames (tRead 3) fun r bs => ?_
  refine gate_renames r (fun st => endMeasurement_renames conv st none) fun s => ?_
  match bs with
  | [b0, b1, b2] =>
    by_cases hv : isCrcValid (assembleRaw b0 b1) b2 = true
    · simp only [hv, if_true, takeFrame_renamed]
      exact endMeasurement_renames conv _ _ _
    · simp only [if_neg hv, takeFrame_renamed]
      exact advance_renames _
  | [] | [_] | [_, _] | _ :: _ :: _ :: _ :: _ => rfl

/-- The diagnostic of a measurement, after which the policy decides (R164). -/
theorem diagnosticCall_renames (conv : Rounding → Raw16 → F32) :
    Renames f g (rdvalCall conv 3) (rdvalCall conv 3) := by
  refine readReg_renames (reg := State.raw) renameState_raw fun raw =>
    readReg_renames (reg := State.cks) renameState_cks fun cks s => ?_
  simp only [record_cfg, renameState_cfg]
  cases s.cfg.crcPolicy with
  | enforce => exact record_then_renames (.diag .crcMismatch raw cks) (endMeasurement_renames conv _ _) s
  | warnAndProceed => exact record_then_renames (.diag .crcMismatch raw cks) (endMeasurement_renames conv _ _) s

theorem rdvalCall_renames (conv : Rounding → Raw16 → F32) (k : Nat) :
    Renames f g (rdvalCall conv k) (rdvalCall conv k) :=
  match k with
  | 0 => readReg_renames renameState_cmd fun _ => busExec_renames _ fun r _ =>
      gate_renames r (fun st => endMeasurement_renames conv st none) advance_renames
  | 1 => fun s => (congrArg (Host.Outcome.next <| advance ·) (delay_renamed _ s)).trans (advance_renames _)
  | 2 => readFrameCall_renames conv
  | 3 => diagnosticCall_renames conv
  | _ + 4 => fault_renames _

/-! The instructions, what is fetched, and the step. -/

/-- A pure operation that answers any value where its operands are outside its domain. -/
theorem valueOrAny_renames (c : Prop) [Decidable c] {v : State → F32} (hv : ∀ s, v (renameState f g s) = v s) :
    Renames f g (whenIdle fun s => if c then returnOk (some (.f32 (v s))) s else returnAny s)
      (whenIdle fun s => if c then returnOk (some (.f32 (v s))) s else returnAny s) := by
  refine whenIdle_renames fun s => ?_
  by_cases hc : c
  · simpa only [hc, if_true, hv] using returnOk_renames (some (.f32 (v s))) s
  · simpa only [hc, if_false] using returnAny_renames s

/-- Each instruction commutes with a renaming, its own names renamed with it. -/
theorem exec_renames (hf : Function.Injective f) (hg : Function.Injective g) (i : Instr) :
    Renames f g (exec i) (exec (renameInstr f g i)) :=
  match i with
  | .crcchk _ _ => whenIdle_renames fun _ => rfl
  | .cvtt _ => whenIdle_renames fun _ => rfl
  | .cvth _ => whenIdle_renames fun _ => rfl
  | .c2f _ => valueOrAny_renames _ fun _ => rfl
  | .cmprh _ _ => valueOrAny_renames _ fun _ => rfl
  | .ppres _ => valueOrAny_renames _ fun _ => rfl
  | .dewpt _ _ => valueOrAny_renames _ fun _ => rfl
  | .rdt => sequenced_renames hf hg .rdt (fun _ => rfl) (rdvalCall_renames _)
  | .rdh => sequenced_renames hf hg .rdh (fun _ => rfl) (rdvalCall_renames _)
  | .rdur => sequenced_renames hf hg .rdur (fun _ => rfl) rdurCall_renames
  | .wrur v => sequenced_renames hf hg (.wrur v) (fun _ => rfl) (wrurCall_renames v)
  | .getres => sequenced_renames hf hg .getres (fun _ => rfl) getresCall_renames
  | .setres r => sequenced_renames hf hg (.setres r) (fun _ => rfl) setresCall_renames
  | .init b dp cp dpu cpu =>
    sequenced_renames hf hg (.init b dp cp dpu cpu) (fun _ => rfl) (initCall_renames b dp cp dpu cpu)
  | .srst => sequenced_renames hf hg .srst (fun _ => rfl) srstCall_renames
  | .wTrigTNh => deviceTakes_renames fun _ => devTrigger .temperature
  | .wTrigHNh => deviceTakes_renames fun _ => devTrigger .humidity
  | .wWrUreg v => deviceTakes_renames fun _ => devWriteUr v
  | .wRdUreg => deviceTakes_renames fun _ => devSelectUr
  | .wSrst => deviceTakes_renames fun cfg => devSoftReset cfg.dev
  | .wTrigTH | .wTrigHH => refused_renames .holdModeNotCovered

/-- What is fetched, with the names in its instruction and its state replaced. -/
def renameFetched (f : BusId → BusId) (g : Pin → Pin) (x : Fetched) : Fetched :=
  match x with
  | .instr i s => .instr (renameInstr f g i) (renameState f g s)
  | .nothing => .nothing
  | .reject r => .reject r

theorem decodeHost_renamed (r : HostRequest) :
    decodeHost (renameRequest f g r) = (decodeHost r).map (renameInstr f g) := by
  unfold decodeHost
  simp only [renameRequest]
  split <;> rfl

/-- The bytes of a wire frame name no bus and no pin. -/
theorem renameInstr_of_decodeWire {bs : List Byte} {i : Instr} (h : decodeWire bs = .ok i) : renameInstr f g i = i := by
  cases i with
  | init b dp cp dpu cpu =>
    unfold decodeWire at h
    grind
  | _ => rfl

theorem fetchFrame_wire_renamed (bs : List Byte) (s : State) :
    fetchFrame (.wire bs) (renameState f g s) = renameFetched f g (fetchFrame (.wire bs) s) := by
  simp only [fetchFrame, decode]
  cases h : decodeWire bs with
  | error e => rfl
  | ok i => exact congrArg (Fetched.instr · _) (renameInstr_of_decodeWire h).symm

theorem fetchFrame_host_renamed (r : HostRequest) (s : State) :
    fetchFrame (.host (renameRequest f g r)) (renameState f g s) = renameFetched f g (fetchFrame (.host r) s) := by
  simp only [fetchFrame, decode, decodeHost_renamed]
  cases decodeHost r <;> rfl

theorem fetch_renamed (s : State) : fetch (renameState f g s) = renameFetched f g (fetch s) := by
  cases hw : s.wire with
  | cons bs rest =>
    rw [fetch_foreign_frame hw, fetch_foreign_frame (rest := rest) (bs := bs) (by simp [hw])]
    exact fetchFrame_wire_renamed bs { s with wire := rest }
  | nil =>
    cases hp : s.ph with
    | run i k =>
      rw [fetch_running hw hp, fetch_running (k := k) (i := renameInstr f g i) (by simp [hw]) (by simp [hp, renamePhase])]
      rfl
    | idle =>
      cases hh : s.host with
      | nil =>
        rw [fetch_nothing hw hp hh, fetch_nothing (by simp [hw]) (by simp [hp, renamePhase]) (by simp [hh])]
        rfl
      | cons r rest =>
        rw [fetch_request hw hp hh, fetch_request (r := renameRequest f g r) (rest := rest.map (renameRequest f g))
          (by simp [hw]) (by simp [hp, renamePhase]) (by simp [hh])]
        exact fetchFrame_host_renamed r { s with host := rest }

end Renaming

/-- Settles O60: what is fetched is renamed, and every instruction commutes with the renaming. -/
theorem busAndPinNamesAreOpaque : Obligations.BusAndPinNamesAreOpaque := by
  intro f g s hf hg
  simp only [step, fetch_renamed]
  cases fetch s with
  | instr i t => exact exec_renames hf hg i t
  | nothing => rfl
  | reject r => rfl

end Sys2Proof.Machine
end

section
/-! Rounding to binary32 (R11, R139). The exact value is measured in units of the last place; `rne32` rounds that number to
the nearest integer, ties to even, and packs it into the exponent and fraction fields; and near the value every binary32 is
an integer number of those units, or smaller than all candidates. -/

namespace Sys2Proof.Machine

/-! ### The quotient rounded to nearest, ties to even -/

/-- The quotient of two naturals rounded as `rne32` rounds its significand. -/
def roundedDiv (n d : Nat) : Nat := if d < 2 * (n % d) ∨ (2 * (n % d) = d ∧ n / d % 2 = 1) then n / d + 1 else n / d

/-- In whole numbers: the error is at most half the divisor, and exactly half only for an even result. -/
theorem roundedDiv_spec {n d : Nat} (hd : 0 < d) :
    2 * (roundedDiv n d * d) ≤ 2 * n + d ∧ 2 * n ≤ 2 * (roundedDiv n d * d) + d ∧
      (2 * (roundedDiv n d * d) = 2 * n + d ∨ 2 * n = 2 * (roundedDiv n d * d) + d → roundedDiv n d % 2 = 0) := by
  have hn : n / d * d + n % d = n := Nat.div_add_mod' n d
  have hr : n % d < d := Nat.mod_lt n hd
  unfold roundedDiv
  split
  · rw [Nat.add_mul]; omega
  · omega

theorem abs_roundedDiv_sub_le {n d : Nat} (hd : 0 < d) : |(roundedDiv n d : ℚ) - n / d| ≤ 1 / 2 := by
  obtain ⟨hl, hu, -⟩ := roundedDiv_spec (n := n) hd
  have hd' : (0 : ℚ) < d := by exact_mod_cast hd
  have hl' : 2 * ((roundedDiv n d : ℚ) * d) ≤ 2 * n + d := by exact_mod_cast hl
  have hu' : 2 * (n : ℚ) ≤ 2 * ((roundedDiv n d : ℚ) * d) + d := by exact_mod_cast hu
  have hn : (n : ℚ) / d * d = n := div_mul_cancel₀ _ hd'.ne'
  rw [abs_le]
  constructor <;> refine le_of_mul_le_mul_right ?_ hd' <;> linarith

theorem roundedDiv_even_of_tie {n d : Nat} (hd : 0 < d) (h : |(roundedDiv n d : ℚ) - n / d| = 1 / 2) :
    roundedDiv n d % 2 = 0 := by
  have hd' : (d : ℚ) ≠ 0 := by exact_mod_cast hd.ne'
  obtain ⟨-, -, heven⟩ := roundedDiv_spec (n := n) hd
  refine heven ?_
  rcases (abs_eq (by norm_num)).mp h with h | h <;> field_simp at h
  · exact .inl (by exact_mod_cast (by linarith : 2 * ((roundedDiv n d : ℚ) * d) = 2 * n + d))
  · exact .inr (by exact_mod_cast (by linarith : 2 * (n : ℚ) = 2 * (roundedDiv n d * d) + d))

/-! ### The exponent, the significand and the unit of `rne32` -/

/-- How many low places of `q`, in units of 2 ^ -149, fall away. -/
def lowPlaces (q : ℚ) : Nat := Nat.log2 (q.num.natAbs * 2 ^ 149 / q.den) - 23

/-- The significand of `rne32 q`, before a carry into the exponent. -/
def roundedSig (q : ℚ) : Nat := roundedDiv (q.num.natAbs * 2 ^ 149) (q.den * 2 ^ lowPlaces q)

/-- The exponent and fraction fields of `rne32 q` as one number. -/
def roundedMag (q : ℚ) : Nat := min (lowPlaces q * 2 ^ 23 + roundedSig q) 0x7F800000

theorem rne32_eq (q : ℚ) : rne32 q = BitVec.ofNat 32 (if q < 0 then 2 ^ 31 + roundedMag q else roundedMag q) := rfl

theorem divisor_pos (q : ℚ) : 0 < q.den * 2 ^ lowPlaces q := Nat.mul_pos q.den_pos (by positivity)

/-- What one unit of the significand is worth with `s` low places gone. -/
def ulp (s : Nat) : ℚ := 2 ^ s / 2 ^ 149

theorem ulp_pos (s : Nat) : 0 < ulp s := by unfold ulp; positivity

theorem ulp_add (s j : Nat) : ulp (s + j) = 2 ^ j * ulp s := by
  unfold ulp
  ring

theorem ulp_mono {s s' : Nat} (h : s ≤ s') : ulp s ≤ ulp s' := by
  unfold ulp
  gcongr
  norm_num

/-- The number that is rounded is the size of `q` in units. -/
theorem scaled_eq (q : ℚ) :
    (q.num.natAbs * 2 ^ 149 : ℕ) / (q.den * 2 ^ lowPlaces q : ℕ) = |q| / ulp (lowPlaces q) := by
  rw [Rat.abs_def, Rat.divInt_eq_div, ulp]
  simp only [Int.cast_natCast, Nat.cast_mul, Nat.cast_pow, Nat.cast_ofNat]
  field_simp

theorem roundedSig_dist (q : ℚ) :
    |(roundedSig q : ℚ) - |q| / ulp (lowPlaces q)| ≤ 1 / 2 ∧
      (|(roundedSig q : ℚ) - |q| / ulp (lowPlaces q)| = 1 / 2 → roundedSig q % 2 = 0) := by
  rw [← scaled_eq]
  exact ⟨abs_roundedDiv_sub_le (divisor_pos q), roundedDiv_even_of_tie (divisor_pos q)⟩

/-- At most 24 places are left. -/
theorem scaled_lt (q : ℚ) : |q| / ulp (lowPlaces q) < 2 ^ 24 := by
  rw [← scaled_eq, div_lt_iff₀ (Nat.cast_pos.mpr (divisor_pos q))]
  have hlog : q.num.natAbs * 2 ^ 149 / q.den < 2 ^ (lowPlaces q + 24) :=
    lt_of_lt_of_le Nat.lt_log2_self (Nat.pow_le_pow_right (by norm_num) (by unfold lowPlaces; omega))
  have h := (Nat.div_lt_iff_lt_mul q.den_pos).mp hlog
  exact_mod_cast h.trans_eq (by ring)

/-- Where any place fell away, 24 are left. -/
theorem le_scaled {q : ℚ} (h : 0 < lowPlaces q) : 2 ^ 23 ≤ |q| / ulp (lowPlaces q) := by
  rw [← scaled_eq, le_div_iff₀ (Nat.cast_pos.mpr (divisor_pos q))]
  have hs : lowPlaces q + 23 = Nat.log2 (q.num.natAbs * 2 ^ 149 / q.den) := by unfold lowPlaces at h ⊢; omega
  have hn : q.num.natAbs * 2 ^ 149 / q.den ≠ 0 := by
    intro h0
    rw [lowPlaces, h0] at h
    exact absurd h (by decide)
  have hlog := Nat.log2_self_le hn
  rw [← hs, Nat.le_div_iff_mul_le q.den_pos] at hlog
  exact_mod_cast (by ring : 2 ^ 23 * (q.den * 2 ^ lowPlaces q) = 2 ^ (lowPlaces q + 23) * q.den).trans_le hlog

/-- Rounding does not pass a whole number. -/
theorem roundedSig_le {q : ℚ} {k : Nat} (h : |q| / ulp (lowPlaces q) < k + 1 / 2) : roundedSig q ≤ k := by
  have hd := (abs_le.mp (roundedSig_dist q).1).2
  have : (roundedSig q : ℚ) < k + 1 := by linarith
  exact Nat.lt_succ_iff.mp (by exact_mod_cast this)

theorem le_roundedSig {q : ℚ} {k : Nat} (h : (k : ℚ) - 1 / 2 < |q| / ulp (lowPlaces q)) : k ≤ roundedSig q := by
  have hd := (abs_le.mp (roundedSig_dist q).1).1
  have : (k : ℚ) < roundedSig q + 1 := by linarith
  exact Nat.lt_succ_iff.mp (by exact_mod_cast this)

theorem roundedSig_le_two_pow (q : ℚ) : roundedSig q ≤ 2 ^ 24 :=
  roundedSig_le (by have := scaled_lt q; push_cast; linarith)

theorem two_pow_le_roundedSig {q : ℚ} (h : 0 < lowPlaces q) : 2 ^ 23 ≤ roundedSig q :=
  le_roundedSig (by have := le_scaled h; push_cast; linarith)

/-! ### Reading the fields of a binary32 -/

section Fields

variable {f : F32} {c m : Nat}

theorem f32Exp_of_toNat (h : f.toNat = 2 ^ 31 * c + m) (hm : m < 2 ^ 31) : f32Exp f = m / 2 ^ 23 := by
  have : f32Exp f = f.toNat / 2 ^ 23 % 256 := by simp [f32Exp, Nat.shiftRight_eq_div_pow]
  omega

theorem f32Frac_of_toNat (h : f.toNat = 2 ^ 31 * c + m) : f32Frac f = m % 2 ^ 23 := by
  unfold f32Frac
  omega

/-- The fields that are a scale `s` and a significand `k`: a significand of 2 ^ 24 has carried into the exponent. -/
theorem f32Units_of_sig {s k : Nat} (h : f.toNat = 2 ^ 31 * c + (s * 2 ^ 23 + k)) (hm : s * 2 ^ 23 + k < 2 ^ 31)
    (hk : k ≤ 2 ^ 24) (hs : 0 < s → 2 ^ 23 ≤ k) : f32Units f = k * 2 ^ (s + 1) := by
  unfold f32Units
  rw [f32Exp_of_toNat h hm, f32Frac_of_toNat h]
  rcases lt_or_ge k (2 ^ 23) with hlt | hge
  · have hs0 : s = 0 := by omega
    have he : (s * 2 ^ 23 + k) / 2 ^ 23 = 0 := by omega
    have hf : (s * 2 ^ 23 + k) % 2 ^ 23 = k := by omega
    rw [he, hf, if_pos rfl, hs0]
    rfl
  · rcases hk.lt_or_eq with hlt | rfl
    · have he : (s * 2 ^ 23 + k) / 2 ^ 23 = s + 1 := by omega
      have hf : (s * 2 ^ 23 + k) % 2 ^ 23 + 2 ^ 23 = k := by omega
      simp only [he, hf, Nat.succ_ne_zero, if_false, Nat.le_add_left, max_eq_left]
    · have he : (s * 2 ^ 23 + 2 ^ 24) / 2 ^ 23 = s + 2 := by omega
      have hf : (s * 2 ^ 23 + 2 ^ 24) % 2 ^ 23 = 0 := by omega
      rw [he, hf, if_neg (by omega), max_eq_left (by omega)]
      ring

/-- Every binary32 has a scale and a significand: above scale 0 the significand is normal. -/
theorem exists_sig (f : F32) : ∃ c s k, f.toNat = 2 ^ 31 * c + (s * 2 ^ 23 + k) ∧ s * 2 ^ 23 + k < 2 ^ 31 ∧
    k < 2 ^ 24 ∧ (0 < s → 2 ^ 23 ≤ k) :=
  ⟨f.toNat / 2 ^ 31, f.toNat % 2 ^ 31 / 2 ^ 23 - 1, f.toNat % 2 ^ 31 - (f.toNat % 2 ^ 31 / 2 ^ 23 - 1) * 2 ^ 23,
    by omega, by omega, by omega, by omega⟩

end Fields

/-- The sign bit as a factor. -/
def signOf (q : ℚ) : ℚ := if q < 0 then -1 else 1

theorem signOf_mul_abs (q : ℚ) : signOf q * |q| = q := by
  unfold signOf
  split
  · rw [abs_of_neg ‹_›]; ring
  · rw [abs_of_nonneg (not_lt.mp ‹_›), one_mul]

theorem abs_signOf_mul (q x : ℚ) : |signOf q * x| = |x| := by
  unfold signOf
  split <;> simp

theorem signOf_mul_signOf_mul (q x : ℚ) : signOf q * (signOf q * x) = x := by
  unfold signOf
  split <;> ring

theorem abs_signOf_mul_sub (q x : ℚ) : |signOf q * x - q| = |x - (|q|)| := by
  rw [← abs_signOf_mul q (x - |q|), mul_sub, signOf_mul_abs]

theorem roundedMag_le (q : ℚ) : roundedMag q ≤ 0x7F800000 := min_le_right _ _

theorem rne32_toNat (q : ℚ) : (rne32 q).toNat = 2 ^ 31 * (if q < 0 then 1 else 0) + roundedMag q := by
  have := roundedMag_le q
  rw [rne32_eq, BitVec.toNat_ofNat]
  split <;> omega

theorem rne32_msb (q : ℚ) : (rne32 q).msb = decide (q < 0) := by
  have h := rne32_toNat q
  have := roundedMag_le q
  rw [BitVec.msb_eq_decide, decide_eq_decide, h]
  split
  · exact iff_of_true (by omega) ‹_›
  · exact iff_of_false (by omega) ‹_›

/-! ### The nearest value -/

/-- A number that is a whole count of units, or smaller than every candidate with `s` low places gone. -/
def OnGrid (s : Nat) (y : ℚ) : Prop := (∃ z : ℤ, y = z * ulp s) ∨ (0 < s ∧ |y| < 2 ^ 23 * ulp s)

theorem OnGrid.signOf_mul {s : Nat} {y : ℚ} (h : OnGrid s y) (q : ℚ) : OnGrid s (signOf q * y) := by
  rcases h with ⟨z, rfl⟩ | ⟨hs, hy⟩
  · refine .inl ?_
    unfold signOf
    split
    · exact ⟨-z, by push_cast; ring⟩
    · exact ⟨z, one_mul _⟩
  · exact .inr ⟨hs, by rwa [abs_signOf_mul]⟩

/-- The size of a binary32 in its own units. -/
theorem exists_abs_f32Val_eq (f : F32) : ∃ k E : Nat, k < 2 ^ 24 ∧ |f32Val f| = k * ulp E := by
  obtain ⟨c, s, k, hf, hm, hk, hs⟩ := exists_sig f
  refine ⟨k, s, hk, ?_⟩
  rw [abs_f32Val, f32Units_of_sig hf hm hk.le hs, ulp]
  simp only [Nat.cast_mul, Nat.cast_pow, Nat.cast_ofNat]
  ring

/-- The value of every binary32 lies on the grid of every scale. -/
theorem f32Val_onGrid (s : Nat) (f : F32) : OnGrid s (f32Val f) := by
  obtain ⟨k, E, hk, hf⟩ := exists_abs_f32Val_eq f
  rcases le_or_gt s E with hle | hlt
  · obtain ⟨j, rfl⟩ := Nat.exists_eq_add_of_le hle
    have habs : OnGrid s |f32Val f| := .inl ⟨k * 2 ^ j, by rw [hf, ulp_add]; push_cast; ring⟩
    simpa only [signOf_mul_abs] using habs.signOf_mul (f32Val f)
  · refine .inr ⟨by omega, ?_⟩
    calc |f32Val f| = k * ulp E := hf
      _ < 2 ^ 24 * ulp E := mul_lt_mul_of_pos_right (by exact_mod_cast hk) (ulp_pos E)
      _ = 2 ^ 23 * ulp (E + 1) := by rw [ulp_add]; ring
      _ ≤ 2 ^ 23 * ulp s := mul_le_mul_of_nonneg_left (ulp_mono hlt) (by norm_num)

/-- No integer is nearer than one at distance 1/2 or less, and another is as near only at distance 1/2. -/
theorem nearest_int {k z : ℤ} {t : ℚ} (hk : |k - t| ≤ 1 / 2) :
    |k - t| ≤ |z - t| ∧ (|k - t| = |z - t| → z ≠ k → |k - t| = 1 / 2) := by
  rcases eq_or_ne z k with rfl | hne
  · exact ⟨le_refl _, fun _ h => absurd rfl h⟩
  · have h1 : (1 : ℚ) ≤ |(z : ℚ) - k| := by exact_mod_cast Int.one_le_abs (sub_ne_zero.mpr hne)
    have h2 : |(z : ℚ) - k| ≤ |z - t| + |k - t| := by rw [abs_sub_comm (k : ℚ)]; exact abs_sub_le _ _ _
    exact ⟨by linarith, fun h _ => by linarith⟩

section Nearest

variable {q : ℚ}

/-- What `rne32` makes of the size of `q`, before a possible overflow. -/
def roundedAbs (q : ℚ) : ℚ := roundedSig q * ulp (lowPlaces q)

/-- No whole count of units is nearer, and for a tie the significand is even. -/
theorem roundedAbs_nearest_int (q : ℚ) (z : ℤ) :
    |roundedAbs q - (|q|)| ≤ |z * ulp (lowPlaces q) - (|q|)| ∧
      (|roundedAbs q - (|q|)| = |z * ulp (lowPlaces q) - (|q|)| → z ≠ roundedSig q → roundedSig q % 2 = 0) := by
  have hu := ulp_pos (lowPlaces q)
  have hscale (x : ℚ) : |x * ulp (lowPlaces q) - (|q|)| = |x - |q| / ulp (lowPlaces q)| * ulp (lowPlaces q) := by
    rw [← abs_of_pos hu, ← abs_mul, abs_of_pos hu, sub_mul, div_mul_cancel₀ _ hu.ne']
  obtain ⟨hd, htie⟩ := roundedSig_dist q
  obtain ⟨hle, heq⟩ := nearest_int (k := roundedSig q) (z := z) (by exact_mod_cast hd)
  simp only [Int.cast_natCast] at hle heq
  simp only [roundedAbs, hscale]
  exact ⟨mul_le_mul_of_nonneg_right hle hu.le, fun h hne => htie (heq (mul_right_cancel₀ hu.ne' h) hne)⟩

/-- Of the numbers on the grid the rounded one is nearest, and for a tie its significand is even. -/
theorem roundedAbs_nearest {y : ℚ} (hy : OnGrid (lowPlaces q) y) :
    |roundedAbs q - (|q|)| ≤ |y - (|q|)| ∧
      (|roundedAbs q - (|q|)| = |y - (|q|)| → y ≠ roundedAbs q → roundedSig q % 2 = 0) := by
  rcases hy with ⟨z, rfl⟩ | ⟨hs, hlt⟩
  · obtain ⟨hle, htie⟩ := roundedAbs_nearest_int q z
    refine ⟨hle, fun h hne => htie h ?_⟩
    rintro rfl
    exact hne rfl
  · have hq : 2 ^ 23 * ulp (lowPlaces q) ≤ |q| := (le_div_iff₀ (ulp_pos _)).mp (le_scaled hs)
    have hle := (roundedAbs_nearest_int q (2 ^ 23)).1
    simp only [Int.cast_pow, Int.cast_ofNat] at hle
    have hfar : |2 ^ 23 * ulp (lowPlaces q) - (|q|)| < |y - (|q|)| := by
      have hy := (abs_lt.mp hlt).2
      rw [abs_sub_comm, abs_sub_comm y, abs_of_nonneg (sub_nonneg.mpr hq), abs_of_nonneg (sub_nonneg.mpr (hy.le.trans hq))]
      linarith
    exact ⟨(hle.trans_lt hfar).le, fun h => absurd h (hle.trans_lt hfar).ne⟩

/-! ### The overflow bound -/

theorem roundedMag_lt_of_abs_lt (hq : |q| < 2 ^ 128 - 2 ^ 103) : lowPlaces q * 2 ^ 23 + roundedSig q < 0x7F800000 := by
  have hle := roundedSig_le_two_pow q
  rcases lt_trichotomy (lowPlaces q) 253 with h | h | h
  · omega
  · have : roundedSig q ≤ 2 ^ 24 - 1 := by
      refine roundedSig_le ?_
      rw [div_lt_iff₀ (ulp_pos _), h]
      exact hq.trans_eq (by norm_num [ulp])
    omega
  · have hbig : 2 ^ 23 * ulp 254 ≤ |q| :=
      (mul_le_mul_of_nonneg_left (ulp_mono h) (by norm_num)).trans
        ((le_div_iff₀ (ulp_pos _)).mp (le_scaled (by omega)))
    norm_num [ulp] at hbig hq
    linarith

theorem le_roundedMag_of_le_abs (hq : 2 ^ 128 - 2 ^ 103 ≤ |q|) : 0x7F800000 ≤ lowPlaces q * 2 ^ 23 + roundedSig q := by
  rcases lt_trichotomy (lowPlaces q) 253 with h | h | h
  · have hsmall : |q| < 2 ^ 24 * ulp 252 :=
      ((div_lt_iff₀ (ulp_pos _)).mp (scaled_lt q)).trans_le
        (mul_le_mul_of_nonneg_left (ulp_mono (by omega)) (by norm_num))
    norm_num [ulp] at hsmall hq
    linarith
  · have ht : (2 ^ 24 - 1 / 2 : ℚ) ≤ |q| / ulp (lowPlaces q) := by
      rw [le_div_iff₀ (ulp_pos _), h]
      exact (by norm_num [ulp] : (2 ^ 24 - 1 / 2) * ulp 253 = 2 ^ 128 - 2 ^ 103).trans_le hq
    have hge : 2 ^ 24 - 1 ≤ roundedSig q := le_roundedSig (by push_cast; linarith)
    have hne : roundedSig q ≠ 2 ^ 24 - 1 := by
      intro hk
      obtain ⟨hd, htie⟩ := roundedSig_dist q
      rw [hk] at hd htie
      have := htie (le_antisymm hd (le_abs.mpr (.inr (by push_cast; linarith))))
      omega
    omega
  · have := two_pow_le_roundedSig (q := q) (by omega)
    omega

end Nearest

/-! ### What `rne32` answers -/

section Rne32

variable {q : ℚ}

theorem roundedMag_eq (hq : |q| < 2 ^ 128 - 2 ^ 103) : roundedMag q = lowPlaces q * 2 ^ 23 + roundedSig q :=
  min_eq_left (roundedMag_lt_of_abs_lt hq).le

theorem rne32_finite (hq : |q| < 2 ^ 128 - 2 ^ 103) : f32Finite (rne32 q) = true := by
  have hlt := roundedMag_lt_of_abs_lt hq
  have hmag := roundedMag_eq hq
  have he : f32Exp (rne32 q) ≠ 255 := by
    rw [f32Exp_of_toNat (rne32_toNat q) (by omega)]
    omega
  simpa [f32Finite] using he

theorem f32Val_rne32 (hq : |q| < 2 ^ 128 - 2 ^ 103) : f32Val (rne32 q) = signOf q * roundedAbs q := by
  have hlt := roundedMag_lt_of_abs_lt hq
  have hN := rne32_toNat q
  rw [roundedMag_eq hq] at hN
  have hunits := f32Units_of_sig hN (by omega) (roundedSig_le_two_pow q) two_pow_le_roundedSig
  have habs : (f32Units (rne32 q) : ℚ) / 2 ^ 150 = roundedAbs q := by
    rw [hunits, roundedAbs, ulp]
    simp only [Nat.cast_mul, Nat.cast_pow, Nat.cast_ofNat]
    ring
  simp only [f32Val, rne32_msb, habs, signOf, decide_eq_true_eq]
  split <;> ring

theorem rne32_getLsbD_zero (hq : |q| < 2 ^ 128 - 2 ^ 103) (h : roundedSig q % 2 = 0) :
    (rne32 q).getLsbD 0 = false := by
  have hN := rne32_toNat q
  rw [roundedMag_eq hq] at hN
  rw [BitVec.getLsbD, Nat.testBit_zero, decide_eq_false_iff_not]
  omega

theorem rne32_nearest (hq : |q| < 2 ^ 128 - 2 ^ 103) (f : F32) :
    |f32Val (rne32 q) - q| ≤ |f32Val f - q| ∧
      (|f32Val (rne32 q) - q| = |f32Val f - q| → f32Val f ≠ f32Val (rne32 q) → (rne32 q).getLsbD 0 = false) := by
  obtain ⟨hle, htie⟩ := roundedAbs_nearest ((f32Val_onGrid (lowPlaces q) f).signOf_mul q)
  rw [← abs_signOf_mul_sub, ← abs_signOf_mul_sub q (_ * _), signOf_mul_signOf_mul, ← f32Val_rne32 hq] at hle htie
  refine ⟨hle, fun h hne => rne32_getLsbD_zero hq (htie h fun hy => hne ?_)⟩
  rw [f32Val_rne32 hq, ← hy, signOf_mul_signOf_mul]

theorem rne32_overflow (hq : 2 ^ 128 - 2 ^ 103 ≤ |q|) : rne32 q = if q < 0 then 0xFF800000#32 else 0x7F800000#32 := by
  rw [rne32_eq, roundedMag, min_eq_right (le_roundedMag_of_le_abs hq)]
  split <;> rfl

theorem rne32_zero : rne32 0 = 0#32 := by decide

end Rne32

/-- Settles O13: the rounded significand is the nearest number on the grid on which every binary32 lies. -/
theorem rne32IsNearestTiesToEven : Obligations.Rne32IsNearestTiesToEven := by
  refine ⟨fun q hq => ⟨rne32_finite hq, fun f _ => rne32_nearest hq f⟩, fun q hq => ?_, rne32_zero⟩
  have hpos : 0 < q := lt_of_lt_of_le (by norm_num) hq
  rw [rne32_overflow (by rwa [abs_of_pos hpos]), rne32_overflow (by rwa [abs_neg, abs_of_pos hpos]),
    if_neg hpos.not_gt, if_pos (neg_lt_zero.mpr hpos)]
  exact ⟨rfl, rfl⟩

/-! ### A finite binary32 is fixed -/

/-- The normal form of a significand with its scale is unique. -/
theorem sig_unique {s s' k k' : Nat} (hk : k < 2 ^ 24) (hk' : k' < 2 ^ 24) (hs : 0 < s → 2 ^ 23 ≤ k)
    (hs' : 0 < s' → 2 ^ 23 ≤ k') (h : k * 2 ^ s = k' * 2 ^ s') : s = s' ∧ k = k' := by
  have hle {s s' k k' : Nat} (hk : k < 2 ^ 24) (hs' : 0 < s' → 2 ^ 23 ≤ k') (h : k * 2 ^ s = k' * 2 ^ s') :
      s' ≤ s := by
    by_contra! hlt
    have : k * 2 ^ s < k' * 2 ^ s' := calc
      k * 2 ^ s < 2 ^ 24 * 2 ^ s := Nat.mul_lt_mul_of_pos_right hk (by positivity)
      _ = 2 ^ 23 * 2 ^ (s + 1) := by ring
      _ ≤ k' * 2 ^ s' := Nat.mul_le_mul (hs' (by omega)) (Nat.pow_le_pow_right (by norm_num) hlt)
    omega
  obtain rfl : s = s' := le_antisymm (hle hk' hs h.symm) (hle hk hs' h)
  exact ⟨rfl, Nat.eq_of_mul_eq_mul_right (by positivity) h⟩

/-- Sign and size determine the bits. -/
theorem f32_ext {a b : F32} (hm : a.msb = b.msb) (hu : f32Units a = f32Units b) : a = b := by
  obtain ⟨c, s, k, ha, hlt, hk, hs⟩ := exists_sig a
  obtain ⟨c', s', k', hb, hlt', hk', hs'⟩ := exists_sig b
  rw [f32Units_of_sig ha hlt hk.le hs, f32Units_of_sig hb hlt' hk'.le hs', pow_succ, pow_succ, ← mul_assoc,
    ← mul_assoc] at hu
  obtain ⟨rfl, rfl⟩ := sig_unique hk hk' hs hs' (Nat.eq_of_mul_eq_mul_right (by norm_num) hu)
  rw [BitVec.msb_eq_decide, BitVec.msb_eq_decide, decide_eq_decide] at hm
  have := a.isLt
  have := b.isLt
  exact BitVec.eq_of_toNat_eq (by omega)

theorem f32Val_neg_iff {f : F32} (h : f ≠ 0x80000000#32) : f32Val f < 0 ↔ f.msb = true := by
  have hnn : (0 : ℚ) ≤ (f32Units f : ℚ) / 2 ^ 150 := by positivity
  unfold f32Val
  split
  · rename_i hm
    have hu : f32Units f ≠ 0 := fun hu => h (f32_ext hm (hu.trans (by decide)))
    exact iff_of_true (neg_lt_zero.mpr (by positivity)) hm
  · exact iff_of_false hnn.not_gt ‹_›

theorem abs_f32Val_lt_of_finite {f : F32} (h : f32Finite f = true) : |f32Val f| < 2 ^ 128 - 2 ^ 103 := by
  have he : f32Exp f ≤ 254 := by
    have hne : f32Exp f ≠ 255 := by simpa [f32Finite] using h
    have := f32Exp_le f
    omega
  have hs : f32Frac f + (if f32Exp f = 0 then 0 else 2 ^ 23) ≤ 2 ^ 24 - 1 := by
    unfold f32Frac; split <;> omega
  have hu : f32Units f ≤ (2 ^ 24 - 1) * 2 ^ 254 :=
    Nat.mul_le_mul hs (Nat.pow_le_pow_right (by norm_num) (max_le he (by norm_num)))
  rw [abs_f32Val, div_lt_iff₀ (by positivity)]
  exact lt_of_le_of_lt (by exact_mod_cast hu) (by norm_num : (((2 ^ 24 - 1) * 2 ^ 254 : ℕ) : ℚ) < _)

/-- Settles O14: the nearest value to that of a finite binary32 is its own, and sign and value determine the bits. -/
theorem rne32FixesFiniteValues : Obligations.Rne32FixesFiniteValues := by
  intro f hf hne
  have hq := abs_f32Val_lt_of_finite hf
  have hval : f32Val (rne32 (f32Val f)) = f32Val f := by
    have := (rne32_nearest hq f).1
    rwa [sub_self, abs_zero, abs_nonpos_iff, sub_eq_zero] at this
  refine f32_ext ?_ ?_
  · rw [rne32_msb, Bool.eq_iff_iff, decide_eq_true_iff, f32Val_neg_iff hne]
  · have habs : (f32Units (rne32 (f32Val f)) : ℚ) / 2 ^ 150 = f32Units f / 2 ^ 150 := by
      rw [← abs_f32Val, ← abs_f32Val, hval]
    exact_mod_cast (div_left_inj' (by positivity)).mp habs

end Sys2Proof.Machine
end

section
/-! The three kinds of instructions (R33, R31, R86), what `exec` does for each, and what a step runs: at `IDLE` a pure
operation ends and an operation with external calls is accepted, a running operation makes its next call, and a wire command
changes the device alone. -/

namespace Sys2Proof.Machine

section Kinds

variable {i : Instr} {s t : State}

theorem isPure_or_isBusOp (h : i.isHost = true) : isPure i = true ∨ isBusOp i = true := by
  rcases Nat.eq_zero_or_pos (callCount i) with hc | hc
  · exact .inl (by simp [isPure, h, hc])
  · exact .inr (by simp [isBusOp, hc])

theorem isBusOp_of_lt {k : Nat} (h : k < callCount i) : isBusOp i = true := decide_eq_true (by omega)

theorem callCount_le_five (i : Instr) : callCount i ≤ 5 := by
  cases i <;> simp [callCount]

/-- A wire frame decodes to a command of the device. -/
theorem isHost_of_decodeWire {bs : List Byte} (h : decodeWire bs = .ok i) : i.isHost = false := by
  unfold decodeWire at h
  grind [Instr.isHost, encode]

/-- A request decodes to a host operation. -/
theorem isHost_of_decodeHost {r : HostRequest} (h : decodeHost r = .ok i) : i.isHost = true := by
  unfold decodeHost at h
  split at h <;> cases h <;> rfl

/-- A pure operation that answers any value where its operands are outside its domain ends with Ok and a value. -/
theorem valueOrAny_ends (c : Prop) [Decidable c] (v : F32) (s : State) :
    ∃ v' q, (if c then returnOk (some (.f32 v)) s else returnAny s) = .next (finish .ok (some v') { s with seq := q }) := by
  split
  · exact ⟨_, s.seq, rfl⟩
  · exact ⟨_, s.seq + 1, rfl⟩

/-- A pure operation is its body at `IDLE` and refused elsewhere (R254), and the body ends with Ok and a value; CRCCHK writes
the flag, and a free value may be drawn. -/
theorem exec_eq_whenIdle (hi : isPure i = true) :
    ∃ body, (∀ s, exec i s = whenIdle body s) ∧
      ∀ s, ∃ v q c, body s = .next (finish .ok (some v) { s with seq := q, crcOk := c }) ∧
        ((∀ raw crc, i ≠ .crcchk raw crc) → c = s.crcOk) := by
  cases i with
  | crcchk raw crc =>
    exact ⟨_, fun _ => rfl, fun s => ⟨_, s.seq, some (isCrcValid raw crc), rfl, fun h => absurd rfl (h raw crc)⟩⟩
  | cvtt | cvth => exact ⟨_, fun _ => rfl, fun s => ⟨_, s.seq, s.crcOk, rfl, fun _ => rfl⟩⟩
  | c2f | cmprh | ppres | dewpt =>
    refine ⟨_, fun _ => rfl, fun s => ?_⟩
    exact (valueOrAny_ends _ _ s).imp fun v => .imp fun q h => ⟨s.crcOk, h, fun _ => rfl⟩
  | rdt | rdh | rdur | wrur | getres | setres | init | srst => simp [isPure, callCount] at hi
  | wTrigTNh | wTrigHNh | wTrigTH | wTrigHH | wWrUreg | wRdUreg | wSrst => simp [isPure, Instr.isHost, encode] at hi

theorem exec_pure (hi : isPure i = true) (hp : s.ph = .idle) :
    ∃ v q c, exec i s = .next (finish .ok (some v) { s with seq := q, crcOk := c }) ∧
      ((∀ raw crc, i ≠ .crcchk raw crc) → c = s.crcOk) := by
  obtain ⟨body, he, hb⟩ := exec_eq_whenIdle hi
  simpa only [he, whenIdle_idle hp] using hb s

theorem idle_of_exec_pure (hi : isPure i = true) (h : exec i s = .next t) : s.ph = .idle := by
  obtain ⟨body, he, -⟩ := exec_eq_whenIdle hi
  exact (whenIdle_next ((he s).symm.trans h)).1

/-- A wire command changes the device or is refused (R76, R96). -/
theorem exec_wire (hi : i.isHost = false) (s : State) :
    (∃ d, exec i s = .next { s with dev := d }) ∨ ∃ r, exec i s = .refused r := by
  cases i with
  | wTrigTNh | wTrigHNh | wWrUreg | wRdUreg | wSrst => exact .inl ⟨_, deviceTakes_eq _ s⟩
  | wTrigTH | wTrigHH => exact .inr ⟨_, rfl⟩
  | _ => simp [Instr.isHost, encode, hostFrame] at hi

/-- The call list of an operation with external calls. -/
def callOf (i : Instr) (k : Nat) (s : State) : Out :=
  match i with
  | .rdt => rdvalCall convT k s
  | .rdh => rdvalCall (fun _ raw => convH raw) k s
  | .rdur => rdurCall k s
  | .wrur v => wrurCall v k s
  | .getres => getresCall k s
  | .setres _ => setresCall k s
  | .init b dp cp dpu cpu => initCall b dp cp dpu cpu k s
  | .srst => srstCall k s
  | _ => .refused .busy

/-- An operation with external calls is `sequenced`, from what its acceptance computes and its call list. -/
theorem exec_eq_sequenced (hi : isBusOp i = true) (s : State) :
    exec i s = sequenced i (accepted i) (callOf i) s := by
  cases i with
  | rdt | rdh | rdur | wrur | getres | setres | init | srst => rfl
  | _ => simp [isBusOp, callCount] at hi

theorem exec_running {k : Nat} (hi : isBusOp i = true) (hp : s.ph = .run i k) : exec i s = callOf i k s :=
  (exec_eq_sequenced hi s).trans (sequenced_run hp)

/-- What a host operation can do: end at once, be accepted, or make its next call. -/
theorem exec_host_next (hi : i.isHost = true) (h : exec i s = .next t) :
    (s.ph = .idle ∧ isPure i = true ∧ ∃ v q c, t = finish .ok (some v) { s with seq := q, crcOk := c } ∧
        ((∀ raw crc, i ≠ .crcchk raw crc) → c = s.crcOk)) ∨
      (s.ph = .idle ∧ isBusOp i = true ∧ t = { accepted i s with ph := .run i 0 }) ∨
      (isBusOp i = true ∧ ∃ k, s.ph = .run i k ∧ callOf i k s = .next t) := by
  rcases isPure_or_isBusOp hi with hi | hi
  · have hp := idle_of_exec_pure hi h
    obtain ⟨v, q, c, he, hc⟩ := exec_pure hi hp
    exact .inl ⟨hp, hi, v, q, c, by simpa [he] using h.symm, hc⟩
  · rw [exec_eq_sequenced hi] at h
    rcases sequenced_next h with ⟨hp, ht⟩ | hrun
    · exact .inr (.inl ⟨hp, hi, ht⟩)
    · exact .inr (.inr ⟨hi, hrun⟩)

/-- A step takes a frame of another master, makes the running operation's next call, takes the host's next request, finds
nothing to run, or refuses a frame. -/
theorem step_cases (s : State) :
    (∃ bs rest i, s.wire = bs :: rest ∧ i.isHost = false ∧ step s = exec i { s with wire := rest }) ∨
      (∃ i k, s.ph = .run i k ∧ step s = exec i s) ∨
      (∃ i rest, s.ph = .idle ∧ i.isHost = true ∧ step s = exec i { s with host := rest }) ∨
      (s.ph = .idle ∧ step s = .next s) ∨ ∃ r, step s = .refused r := by
  have decoded {fr : Frame} {u : State} (hf : fetch s = fetchFrame fr u) :
      (∃ i, decode fr = .ok i ∧ step s = exec i u) ∨ ∃ r, step s = .refused r := by
    cases hd : decode fr with
    | ok i => exact .inl ⟨i, rfl, step_fetched (hf.trans (fetchFrame_decoded hd u))⟩
    | error e => exact .inr ⟨decodeRefusal e, by simp [step, hf, fetchFrame, hd]⟩
  cases hw : s.wire with
  | cons bs rest =>
    rcases decoded (fetch_foreign_frame hw) with ⟨i, hd, hs⟩ | hr
    · exact .inl ⟨bs, rest, i, rfl, isHost_of_decodeWire hd, hs⟩
    · exact .inr (.inr (.inr (.inr hr)))
  | nil =>
    cases hp : s.ph with
    | run i k => exact .inr (.inl ⟨i, k, rfl, step_fetched (fetch_running hw hp)⟩)
    | idle =>
      cases hh : s.host with
      | nil => exact .inr (.inr (.inr (.inl ⟨rfl, step_nothing (fetch_nothing hw hp hh)⟩)))
      | cons r rest =>
        rcases decoded (fetch_request hw hp hh) with ⟨i, hd, hs⟩ | hr
        · exact .inr (.inr (.inl ⟨i, rest, rfl, isHost_of_decodeHost hd, by simpa only [hw, hp] using hs⟩))
        · exact .inr (.inr (.inr (.inr hr)))

end Kinds

/-- Settles O16: the pure operation ends in its one step, which is `finish` after the flag and the draw counter. -/
theorem pureOperationsTouchNothingElse : Obligations.PureOperationsTouchNothingElse := by
  intro i s hi hp
  obtain ⟨v, q, c, he, hc⟩ := exec_pure hi hp
  exact ⟨_, he, rfl, rfl, Option.some_ne_none v, finish_dead _ _ _, rfl, rfl, rfl, rfl, rfl, rfl, rfl, rfl, rfl, rfl, hc⟩

/-- Settles O17: acceptance is the idle branch of `sequenced`. -/
theorem requestAcceptedAtIdle : Obligations.RequestAcceptedAtIdle := fun _ s hi hp =>
  (exec_eq_sequenced hi s).trans (sequenced_idle hp)

end Sys2Proof.Machine
end

section
/-! What a call leaves unchanged (R22, R34, R71): each shared operation keeps configuration, queues, link and handle, and the
flag and the legacy outputs of all but the measurements, so every call list does, and so does every instruction. -/

namespace Sys2Proof.Machine

section Frame

variable {m : Bool} {s u t : State}

/-- What no call changes but the trace: the flag and the legacy outputs are part of it where the running operation is no
measurement (`m` is false). -/
def kept (m : Bool) (s : State) :=
  (s.cfg, s.host, s.wire, s.link, s.bh, s.trace, if m then none else some (s.crcOk, s.legacyRaw, s.legacyEng))

/-- A next state of `f` has the kept part as it was: `f` makes no call. -/
def MakesNoCall (m : Bool) (f : State → Out) : Prop := ∀ s t, f s = .next t → kept m t = kept m s

/-- A next state of `f` has the kept part as it was, but for one event more in the trace. -/
def MakesOneCall (m : Bool) (f : State → Out) : Prop := ∀ s t, f s = .next t → ∃ e, kept m t = kept m (record e s)

theorem makesNoCall_next {f : State → State} (h : ∀ s, kept m (f s) = kept m s) : MakesNoCall m fun s => .next (f s) := by
  rintro s _ ⟨⟩
  exact h s

theorem raise_makesNoCall (st : Status) : MakesNoCall m (raise st) := makesNoCall_next fun _ => rfl

theorem returnOk_makesNoCall (v : Option Value) : MakesNoCall m (returnOk v) := makesNoCall_next fun _ => rfl

@[simp] theorem kept_advance (s : State) : kept m (advance s) = kept m s := by
  simp [kept]

theorem advance_makesNoCall : MakesNoCall m fun s => .next (advance s) := makesNoCall_next kept_advance

theorem gate_makesNoCall (r : BusResult) {onFail : Status → State → Out} {goOn : State → Out}
    (hf : ∀ st, MakesNoCall m (onFail st)) (hg : MakesNoCall m goOn) :
    MakesNoCall m fun s => gate r onFail s goOn := fun s t h =>
  (gate_next h).elim (fun h => hg s t h.2) (fun h => hf _ s t h.2)

theorem kept_record_of_onlyTransport (h : OnlyTransport s u) (e : Event) : kept m (record e u) = kept m (record e s) :=
  ((congrArg (fun v => kept m (record e v)) h).trans rfl).trans rfl

theorem busExec_makesOneCall (x : Txn) {k : BusResult → List Byte → State → Out}
    (hk : ∀ r bs, MakesNoCall m (k r bs)) : MakesOneCall m fun s => busExec x s k := by
  intro s t h
  obtain ⟨b, r, bs, u, -, ha, h⟩ := busExec_next h
  exact ⟨_, (hk r bs _ t h).trans (kept_record_of_onlyTransport (askExec_ok ha).1 _)⟩

theorem busConfig_makesOneCall (b : BusId) (dp cp : Pin) (dpu cpu : Bool) {k : Bool → State → Out}
    (hk : ∀ ok, MakesNoCall m (k ok)) : MakesOneCall m fun s => busConfig b dp cp dpu cpu s k := by
  intro s t h
  obtain ⟨ok, u, ha, h⟩ := busConfig_next h
  exact ⟨_, (hk ok _ t h).trans (kept_record_of_onlyTransport (askAck_ok ha) _)⟩

theorem busInstall_makesOneCall (b : BusId) {k : Bool → State → Out} (hk : ∀ ok, MakesNoCall m (k ok)) :
    MakesOneCall m fun s => busInstall b s k := by
  intro s t h
  obtain ⟨ok, u, ha, h⟩ := busInstall_next h
  exact ⟨_, (hk ok _ t h).trans (kept_record_of_onlyTransport (askAck_ok ha) _)⟩

theorem readReg_makesOneCall {α : Type} {reg : State → Option α} {k : α → State → Out}
    (hk : ∀ v, MakesOneCall m (k v)) : MakesOneCall m fun s => readReg (reg s) fun v => k v s := by
  intro s t h
  obtain ⟨v, -, h⟩ := readReg_next h
  exact hk v s t h

theorem delay_then_makesOneCall (ms : Nat) {f : State → Out} (hf : MakesNoCall m f) :
    MakesOneCall m fun s => f (delay ms s) := fun s t h =>
  ⟨.delay ms, hf (delay ms s) t h⟩

theorem fault_makesOneCall (r : Fault) : MakesOneCall m fun _ => .fault r := fun _ _ h => nomatch h

/-- A `BusExec` whose gate ends the operation with `raise`. -/
theorem busExec_raise_makesOneCall (x : Txn) {goOn : List Byte → State → Out} (hg : ∀ bs, MakesNoCall m (goOn bs)) :
    MakesOneCall m fun s => busExec x s fun r bs s => gate r raise s (goOn bs) :=
  busExec_makesOneCall x fun r bs => gate_makesNoCall r raise_makesNoCall (hg bs)

/-! The call lists. -/

theorem resetCall_makesOneCall : MakesOneCall m resetCall := busExec_raise_makesOneCall _ fun _ => advance_makesNoCall

theorem settleCall_makesOneCall : MakesOneCall m settleCall := delay_then_makesOneCall _ (returnOk_makesNoCall none)

theorem selectUregCall_makesOneCall : MakesOneCall m selectUregCall :=
  busExec_raise_makesOneCall _ fun _ => advance_makesNoCall

theorem readUregCall_makesOneCall {use : Byte → State → Out} (hu : ∀ b, MakesNoCall m (use b)) :
    MakesOneCall m (readUregCall use) := by
  refine busExec_raise_makesOneCall _ fun bs s t h => ?_
  match bs, h with
  | [b], h => exact hu b { s with regv := some b } t h

theorem writeUregCall_makesOneCall (v : Byte) : MakesOneCall m (writeUregCall v) :=
  busExec_raise_makesOneCall _ fun _ => returnOk_makesNoCall none

theorem srstCall_makesOneCall (k : Nat) : MakesOneCall m (srstCall k) :=
  match k with
  | 0 => resetCall_makesOneCall
  | 1 => settleCall_makesOneCall
  | _ + 2 => fault_makesOneCall _

theorem passOrRaise_makesNoCall (c : Prop) [Decidable c] (st : Status) :
    MakesNoCall m fun s => if c then .next (advance s) else raise st s := by
  intro s t h
  split at h
  · exact advance_makesNoCall s t h
  · exact raise_makesNoCall st s t h

theorem initCall_makesOneCall (b : BusId) (dp cp : Pin) (dpu cpu : Bool) (k : Nat) :
    MakesOneCall m (initCall b dp cp dpu cpu k) :=
  match k with
  | 0 => busConfig_makesOneCall b dp cp dpu cpu fun ok => passOrRaise_makesNoCall (ok = true) _
  | 1 => busInstall_makesOneCall b fun ok => passOrRaise_makesNoCall (ok = true) _
  | 2 => busExec_makesOneCall _ fun r _ => passOrRaise_makesNoCall (r = .ok) _
  | 3 => resetCall_makesOneCall
  | 4 => settleCall_makesOneCall
  | _ + 5 => fault_makesOneCall _

theorem rdurCall_makesOneCall (k : Nat) : MakesOneCall m (rdurCall k) :=
  match k with
  | 0 => selectUregCall_makesOneCall
  | 1 => readUregCall_makesOneCall fun _ => returnOk_makesNoCall _
  | _ + 2 => fault_makesOneCall _

theorem wrurCall_makesOneCall (v : Byte) (k : Nat) : MakesOneCall m (wrurCall v k) :=
  match k with
  | 0 => writeUregCall_makesOneCall v
  | _ + 1 => fault_makesOneCall _

theorem getresCall_makesOneCall (k : Nat) : MakesOneCall m (getresCall k) :=
  match k with
  | 0 => selectUregCall_makesOneCall
  | 1 => readUregCall_makesOneCall fun _ => returnOk_makesNoCall _
  | _ + 2 => fault_makesOneCall _

/-- SETRES merges the byte read and the operand in the registers alone (R198). -/
theorem mergeAndAdvance_makesNoCall (b : Byte) :
    MakesNoCall m fun s => readReg s.resv fun r => .next (advance { s with merge := some (mergeRes b r) }) := by
  intro s t h
  obtain ⟨r, -, ⟨⟩⟩ := readReg_next h
  exact kept_advance { s with merge := some (mergeRes b r) }

theorem setresCall_makesOneCall (k : Nat) : MakesOneCall m (setresCall k) :=
  match k with
  | 0 => selectUregCall_makesOneCall
  | 1 => readUregCall_makesOneCall mergeAndAdvance_makesNoCall
  | 2 => readReg_makesOneCall writeUregCall_makesOneCall
  | _ + 3 => fault_makesOneCall _

theorem endMeasurement_makesNoCall (conv : Rounding → Raw16 → F32) (st : Status) (v : Option Raw16) :
    MakesNoCall true (endMeasurement conv st v) := makesNoCall_next fun s => by
  simp [kept]

theorem readFrameCall_makesOneCall (conv : Rounding → Raw16 → F32) : MakesOneCall true (rdvalCall conv 2) := by
  unfold rdvalCall
  refine busExec_makesOneCall (tRead 3) fun r bs =>
    gate_makesNoCall r (fun st => endMeasurement_makesNoCall conv st none) fun s t h => ?_
  match bs, h with
  | [b0, b1, b2], h =>
    by_cases hv : isCrcValid (assembleRaw b0 b1) b2 = true
    · exact endMeasurement_makesNoCall conv _ _ (takeFrame b0 b1 b2 s) t ((if_pos hv).symm.trans h)
    · exact advance_makesNoCall (takeFrame b0 b1 b2 s) t ((if_neg hv).symm.trans h)

theorem diagnosticCall_makesOneCall (conv : Rounding → Raw16 → F32) : MakesOneCall true (rdvalCall conv 3) := by
  refine readReg_makesOneCall (reg := State.raw) fun raw => readReg_makesOneCall (reg := State.cks) fun cks s t h => ?_
  refine ⟨.diag .crcMismatch raw cks, ?_⟩
  dsimp only at h
  split at h <;> exact endMeasurement_makesNoCall conv _ _ _ t h

theorem rdvalCall_makesOneCall (conv : Rounding → Raw16 → F32) (k : Nat) : MakesOneCall true (rdvalCall conv k) :=
  match k with
  | 0 => readReg_makesOneCall fun _ => busExec_makesOneCall _ fun r _ =>
      gate_makesNoCall r (fun st => endMeasurement_makesNoCall conv st none) advance_makesNoCall
  | 1 => delay_then_makesOneCall _ advance_makesNoCall
  | 2 => readFrameCall_makesOneCall conv
  | 3 => diagnosticCall_makesOneCall conv
  | _ + 4 => fault_makesOneCall _

end Frame

/-- The two operations that write the legacy outputs, and the flag from a frame (R34, R170). -/
def measures (i : Instr) : Bool := i == .rdt || i == .rdh

theorem callOf_makesOneCall (i : Instr) (k : Nat) : MakesOneCall (measures i) (callOf i k) :=
  match i with
  | .rdt => rdvalCall_makesOneCall _ k
  | .rdh => rdvalCall_makesOneCall _ k
  | .rdur => rdurCall_makesOneCall k
  | .wrur v => wrurCall_makesOneCall v k
  | .getres => getresCall_makesOneCall k
  | .setres _ => setresCall_makesOneCall k
  | .init b dp cp dpu cpu => initCall_makesOneCall b dp cp dpu cpu k
  | .srst => srstCall_makesOneCall k
  | .crcchk _ _ | .cvtt _ | .cvth _ | .c2f _ | .cmprh _ _ | .ppres _ | .dewpt _ _ | .wTrigTNh | .wTrigHNh | .wTrigTH
  | .wTrigHH | .wWrUreg _ | .wRdUreg | .wSrst => fun _ _ h => nomatch h

/-! Acceptance (R32) writes the command byte, the resolution operand or the handle. -/

section Accepted

variable (i : Instr) (s : State)

@[simp] theorem accepted_status : (accepted i s).status = s.status := by cases i <;> rfl
@[simp] theorem accepted_val : (accepted i s).val = s.val := by cases i <;> rfl
@[simp] theorem accepted_cfg : (accepted i s).cfg = s.cfg := by cases i <;> rfl
@[simp] theorem accepted_host : (accepted i s).host = s.host := by cases i <;> rfl
@[simp] theorem accepted_wire : (accepted i s).wire = s.wire := by cases i <;> rfl
@[simp] theorem accepted_link : (accepted i s).link = s.link := by cases i <;> rfl
@[simp] theorem accepted_crcOk : (accepted i s).crcOk = s.crcOk := by cases i <;> rfl
@[simp] theorem accepted_legacyRaw : (accepted i s).legacyRaw = s.legacyRaw := by cases i <;> rfl
@[simp] theorem accepted_legacyEng : (accepted i s).legacyEng = s.legacyEng := by cases i <;> rfl
@[simp] theorem accepted_trace : (accepted i s).trace = s.trace := by cases i <;> rfl

theorem accepted_bh {i : Instr} (h : ∀ b dp cp dpu cpu, i ≠ .init b dp cp dpu cpu) : (accepted i s).bh = s.bh := by
  cases i with
  | init b dp cp dpu cpu => exact absurd rfl (h b dp cp dpu cpu)
  | _ => rfl

end Accepted

/-- Settles O28: a pure operation, an acceptance and a wire command change what they name, and a call keeps its part. -/
theorem execFrame : Obligations.ExecFrame := by
  intro i s t h
  cases hi : i.isHost with
  | false =>
    rcases exec_wire hi s with ⟨d, he⟩ | ⟨r, he⟩
    · obtain rfl : _ = t := by simpa [he] using h
      simp
    · simp [he] at h
  | true =>
    rcases exec_host_next hi h with ⟨-, -, v, q, c, rfl, hc⟩ | ⟨-, -, rfl⟩ | ⟨-, k, -, hk⟩
    · simpa using fun _ _ => hc
    · simpa using accepted_bh s
    · obtain ⟨e, he⟩ := callOf_makesOneCall i k s t hk
      simp only [kept, Prod.mk.injEq, record_cfg] at he
      obtain ⟨hcfg, hhost, hwire, hlink, hbh, htrace, hflags⟩ := he
      have hflags (ht : i ≠ .rdt) (hh : i ≠ .rdh) :
          t.crcOk = s.crcOk ∧ t.legacyRaw = s.legacyRaw ∧ t.legacyEng = s.legacyEng := by
        simpa [measures, ht, hh] using hflags
      exact ⟨hcfg, hhost, hwire, hlink, fun _ => hbh, fun ht hh _ => (hflags ht hh).1, fun ht hh => (hflags ht hh).2,
        .inr ⟨e, htrace⟩, by simp⟩

end Sys2Proof.Machine
end

section
/-! What a call of the running operation does in a state that meets the invariant (R21, R23, R31, R58, R240). One statement,
`CallMeets`, says it for every outcome of a call, and each shared operation has one rule for it; the invariant, the ways of
`PH`, the faults that cannot happen and the end of every operation follow from it. -/

namespace Sys2Proof.Machine

/-! ### Decided answers that fit the calls left -/

/-- The transport answers the calls `ks`: it is the responder, or every decided answer is of its call's type. -/
def Fits (ks : List CallKind) (s : State) : Prop := s.link = .responder ∨ AnswersFit ks s.answers

theorem answersFit_nil (ks : List CallKind) : AnswersFit ks [] := by
  induction ks with
  | nil => trivial
  | cons c ks ih => cases c with
    | silent => exact ih
    | ack | exec => trivial

theorem callsLeft_eq {i : Instr} {k : Nat} (h : k < callCount i) :
    callsLeft i k = callKind i k :: callsLeft i (k + 1) := by
  obtain ⟨n, hn⟩ : ∃ n, callCount i - k = n + 1 := ⟨callCount i - k - 1, by omega⟩
  have hn' : callCount i - (k + 1) = n := by omega
  simp [callsLeft, hn, hn', List.range'_succ]

theorem askExec_of_fits {x : Txn} {ks : List CallKind} {s : State} (h : Fits (.exec (rbyteCount x) :: ks) s) :
    ∃ a, askExec x s = .ok a ∧ Fits ks a.2.2 := by
  unfold askExec
  split
  next hl =>
    have hf : AnswersFit (.exec (rbyteCount x) :: ks) s.answers := h.resolve_left (by simp [hl])
    split
    next ha => exact ⟨_, rfl, .inr (ha ▸ answersFit_nil ks)⟩
    next r bs rest ha =>
      rw [ha] at hf
      obtain ⟨hlen, hrest⟩ := hf
      by_cases hr : r = .ok
      · exact ⟨_, (if_pos hr).trans (if_pos (hlen hr)), .inr hrest⟩
      · exact ⟨_, if_neg hr, .inr hrest⟩
    next c _ hne ha =>
      rw [ha] at hf
      cases c with
      | exec r bs => exact absurd rfl (hne r bs)
      | ack | alien => exact hf.elim
  next hl => exact ⟨_, rfl, .inl hl⟩

theorem askAck_of_fits (f : Dev → Bool × Dev) {ks : List CallKind} {s : State} (h : Fits (.ack :: ks) s) :
    ∃ a, askAck f s = .ok a ∧ Fits ks a.2 := by
  unfold askAck
  split
  next hl =>
    have hf : AnswersFit (.ack :: ks) s.answers := h.resolve_left (by simp [hl])
    split
    next ha => exact ⟨_, rfl, .inr (ha ▸ answersFit_nil ks)⟩
    next b rest ha =>
      rw [ha] at hf
      exact ⟨_, rfl, .inr hf⟩
    next c _ hne ha =>
      rw [ha] at hf
      cases c with
      | ack b => exact absurd rfl (hne b)
      | exec | alien => exact hf.elim
  next hl => exact ⟨_, rfl, .inl hl⟩

/-! ### The part of the invariant that does not speak of `PH` -/

/-- A value only beside Ok, legacy outputs only with the view on, a legal trace. -/
def Standing (s : State) : Prop := ResponseLegal s ∧ LegacyLegal s ∧ ∀ e ∈ s.trace, EventLegal e

theorem Invariant.standing {s : State} (hI : Invariant s) : Standing s := hI.2.2

theorem phaseLegal_of_idle {s : State} (hp : s.ph = .idle) : PhaseLegal s := by simp [PhaseLegal, hp]

theorem phaseLegal_run {s : State} {i : Instr} {k : Nat} (hp : s.ph = .run i k) :
    PhaseLegal s ↔ k < callCount i ∧ (0 < k → s.bh ≠ none) := by
  simp only [PhaseLegal, hp]

theorem registersLive_of_idle {s : State} (hp : s.ph = .idle) : RegistersLive s ↔ DatapathDead s := by
  simp only [RegistersLive, hp]

/-- An operation that ends with a value only beside Ok leaves a state of the invariant. -/
theorem finish_invariant {st : Status} {v : Option Value} {u : State} (hu : Standing u) (hv : v ≠ none → st = .ok) :
    Invariant (finish st v u) := by
  obtain ⟨-, hlegacy, htrace⟩ := hu
  exact ⟨phaseLegal_of_idle rfl, (registersLive_of_idle rfl).mpr (finish_dead st v u), fun h => congrArg some (hv h), hlegacy,
    htrace⟩

/-- The legacy outputs are set with the view on only. -/
theorem legacyView_invariant (conv : Rounding → Raw16 → F32) (st : Status) (v : Option Raw16) {s : State} (hp : s.ph = .idle)
    (hI : Invariant s) : Invariant (legacyView conv st v s) := by
  obtain ⟨-, hlive, hresponse, hlegacy, htrace⟩ := hI
  have hp' : (legacyView conv st v s).ph = .idle := by simp [hp]
  refine ⟨phaseLegal_of_idle hp', ?_, ?_, ?_, ?_⟩
  · simpa [registersLive_of_idle hp', DatapathDead] using (registersLive_of_idle hp).mp hlive
  · simpa [ResponseLegal] using hresponse
  · intro hoff
    rw [legacyView_cfg] at hoff
    simpa only [legacyView_off conv st v s hoff] using hlegacy hoff
  · simpa using htrace

/-! ### One call -/

/-- What holds after call `k` of `i` has been made from `s` and answered, before `PH` moves: the call is in the trace, and
what the rest of the operation relies on is as it was. -/
structure Called (i : Instr) (k : Nat) (s u : State) : Prop where
  ph : u.ph = s.ph
  bh : u.bh = s.bh
  status : u.status = s.status
  val : u.val = s.val
  cfg : u.cfg = s.cfg
  legacyRaw : u.legacyRaw = s.legacyRaw
  legacyEng : u.legacyEng = s.legacyEng
  cmd : u.cmd = s.cmd
  resv : u.resv = s.resv
  trace : ∃ e, EventLegal e ∧ u.trace = s.trace ++ [e]
  fits : Fits (callsLeft i k) s → Fits (callsLeft i (k + 1)) u

/-- What each outcome of call `k` of `i` means: a next state meets the invariant and is idle or counts one call more, the one
fault is that of an unwritten handle, and a refusal comes of a decided answer that does not fit. -/
def CallMeets (i : Instr) (k : Nat) (s : State) (o : Out) : Prop :=
  match o with
  | .next t =>
    Invariant t ∧ (t.ph = .idle ∨ (t.ph = .run i (k + 1) ∧ (Fits (callsLeft i k) s → Fits (callsLeft i (k + 1)) t)))
  | .fault r => r = .unwrittenHandle ∧ s.bh = none
  | .refused _ => ¬ Fits (callsLeft i k) s

section Rules

variable {i : Instr} {k : Nat} {s u : State}

theorem Called.standing (hc : Called i k s u) (hI : Invariant s) : Standing u := by
  obtain ⟨hresponse, hlegacy, htrace⟩ := hI.standing
  obtain ⟨e, he, ht⟩ := hc.trace
  refine ⟨?_, ?_, ?_⟩
  · simpa only [ResponseLegal, hc.val, hc.status] using hresponse
  · simpa only [LegacyLegal, hc.cfg, hc.legacyRaw, hc.legacyEng] using hlegacy
  · simpa [ht, or_imp, forall_and, he] using htrace

theorem OnlyTransport.field {α : Type} {s' : State} (h : OnlyTransport s s') (f : State → α) :
    f s' = f { s with answers := s'.answers, seq := s'.seq, dev := s'.dev } := congrArg f h

theorem called_record {s' : State} {e : Event} (h : OnlyTransport s s') (he : EventLegal e)
    (hf : Fits (callsLeft i k) s → Fits (callsLeft i (k + 1)) s') : Called i k s (record e s') where
  ph := h.field State.ph
  bh := h.field State.bh
  status := h.field State.status
  val := h.field State.val
  cfg := h.field State.cfg
  legacyRaw := h.field State.legacyRaw
  legacyEng := h.field State.legacyEng
  cmd := h.field State.cmd
  resv := h.field State.resv
  trace := ⟨e, he, h.field fun v => v.trace ++ [e]⟩
  fits := hf

/-! The call may be followed by what the operation writes to its registers. -/

theorem Called.takeFrame (hc : Called i k s u) (b0 b1 b2 : Byte) : Called i k s (takeFrame b0 b1 b2 u) := { hc with }

theorem Called.setRegv (hc : Called i k s u) (b : Byte) : Called i k s { u with regv := some b } := { hc with }

theorem Called.setMerge (hc : Called i k s u) (m : Byte) : Called i k s { u with merge := some m } := { hc with }

variable (hI : Invariant s) (hp : s.ph = .run i k)
include hI

/-- The operation ends. -/
theorem finish_callMeets {st : Status} {v : Option Value} (hc : Called i k s u) (hv : v ≠ none → st = .ok) :
    CallMeets i k s (.next (finish st v u)) :=
  ⟨finish_invariant (hc.standing hI) hv, .inl rfl⟩

theorem raise_callMeets (st : Status) (hc : Called i k s u) : CallMeets i k s (raise st u) :=
  finish_callMeets hI hc fun h => absurd rfl h

theorem returnOk_callMeets (v : Option Value) (hc : Called i k s u) : CallMeets i k s (returnOk v u) :=
  finish_callMeets hI hc fun _ => rfl

theorem endMeasurement_callMeets (conv : Rounding → Raw16 → F32) {st : Status} {v : Option Raw16} (hc : Called i k s u)
    (hv : v ≠ none → st = .ok) : CallMeets i k s (endMeasurement conv st v u) :=
  ⟨legacyView_invariant conv st v rfl (finish_invariant (hc.standing hI) (by simpa using hv)), .inl (legacyView_ph ..)⟩

include hp

theorem lt_callCount : k < callCount i := ((phaseLegal_run hp).mp hI.1).1

theorem bh_ne_none (hk : 0 < k) : s.bh ≠ none := ((phaseLegal_run hp).mp hI.1).2 hk

/-- The operation moves on by one call. -/
theorem advance_callMeets (hc : Called i k s u) (hk : k + 1 < callCount i) (hb : s.bh ≠ none)
    (hr : RegistersLive (advance u)) : CallMeets i k s (.next (advance u)) := by
  have hph : (advance u).ph = .run i (k + 1) := advance_ph_run u i k (hc.ph.trans hp)
  have hs : Standing (advance u) := by
    simpa [Standing, ResponseLegal, LegacyLegal] using hc.standing hI
  refine ⟨⟨(phaseLegal_run hph).mpr ⟨hk, fun _ => ?_⟩, hr, hs⟩, .inr ⟨hph, ?_⟩⟩
  · rwa [advance_bh, hc.bh]
  · simpa [Fits] using hc.fits

/-- A call that reads no byte leaves the registers that the rest of the operation reads. -/
theorem registersLive_advance (hc : Called i k s u) (hq : ∀ n, callKind i k ≠ .exec (n + 1)) :
    RegistersLive (advance u) := by
  have hph : (advance u).ph = .run i (k + 1) := advance_ph_run u i k (hc.ph.trans hp)
  have hs : RegistersLive s := hI.2.1
  cases i with
  | rdt | rdh =>
    simp only [RegistersLive, hp] at hs
    simp only [RegistersLive, hph]
    refine ⟨(advance_cmd u).trans (hc.cmd.trans hs.1), fun h3 => ?_⟩
    obtain rfl : k = 2 := by omega
    exact absurd rfl (hq 2)
  | setres r =>
    simp only [RegistersLive, hp] at hs
    simp only [RegistersLive, hph]
    refine ⟨(advance_resv u).trans (hc.resv.trans hs.1), fun h2 => ?_⟩
    obtain rfl : k = 1 := by omega
    exact absurd rfl (hq 0)
  | init =>
    simp only [RegistersLive, hp] at hs
    simp only [RegistersLive, hph]
    exact (advance_bh u).trans (hc.bh.trans hs)
  | _ => simp only [RegistersLive, hph]

/-- A call that is not answered: a Delay or a diagnostic. -/
theorem called_silent (hkind : callKind i k = .silent) {e : Event} (he : EventLegal e) (d : Dev) :
    Called i k s (record e { s with dev := d }) :=
  called_record rfl he fun h => by rwa [callsLeft_eq (lt_callCount hI hp), hkind] at h

/-- A `BusExec` of one of the block's transactions. -/
theorem busExec_callMeets {x : Txn} (hkind : callKind i k = .exec (rbyteCount x)) (hx : IssuedTxn x)
    {f : BusResult → List Byte → State → Out}
    (hf : ∀ r bs u, s.bh ≠ none → Called i k s u → (bs.length = if r = .ok then rbyteCount x else 0) →
      CallMeets i k s (f r bs u)) : CallMeets i k s (busExec x s f) := by
  have hleft : callsLeft i k = .exec (rbyteCount x) :: callsLeft i (k + 1) := by
    rw [callsLeft_eq (lt_callCount hI hp), hkind]
  cases hb : s.bh with
  | none =>
    rw [busExec_unwritten hb]
    exact ⟨rfl, hb⟩
  | some b =>
    cases ha : askExec x s with
    | error e =>
      simp only [busExec, hb, ha]
      intro hfit
      obtain ⟨a, ha', -⟩ := askExec_of_fits (hleft ▸ hfit)
      simp [ha] at ha'
    | ok a =>
      obtain ⟨r, bs, s'⟩ := a
      obtain ⟨hot, hlen⟩ := askExec_ok ha
      rw [busExec_answered hb ha]
      refine hf r bs _ (by simp [hb]) (called_record hot ⟨hx, rfl, hlen⟩ fun hfit => ?_) hlen
      obtain ⟨a, ha', hfit'⟩ := askExec_of_fits (hleft ▸ hfit)
      obtain rfl : (r, bs, s') = a := by simpa [ha] using ha'
      exact hfit'

/-- A `BusExec` and its gate. -/
theorem busExec_gate_callMeets {x : Txn} (hkind : callKind i k = .exec (rbyteCount x)) (hx : IssuedTxn x)
    {onFail : Status → State → Out} {goOn : List Byte → State → Out}
    (hfail : ∀ st u, Called i k s u → CallMeets i k s (onFail st u))
    (hgo : ∀ bs u, s.bh ≠ none → Called i k s u → bs.length = rbyteCount x → CallMeets i k s (goOn bs u)) :
    CallMeets i k s (busExec x s fun r bs u => gate r onFail u (goOn bs)) := by
  refine busExec_callMeets hI hp hkind hx fun r bs u hb hc hlen => ?_
  by_cases hr : r = .ok
  · subst hr
    rw [gate_ok]
    exact hgo bs u hb hc (by simpa using hlen)
  · rw [gate_failed hr]
    exact hfail _ u hc

/-- What follows the answer to `BusConfig` and `BusInstall`. -/
theorem askAck_callMeets (g : Dev → Bool × Dev) (hkind : callKind i k = .ack) {e : Bool → Event} (he : ∀ ok, EventLegal (e ok))
    {f : Bool → State → Out} (hf : ∀ ok u, Called i k s u → CallMeets i k s (f ok u)) :
    CallMeets i k s (match askAck g s with
      | .ok a => f a.1 (record (e a.1) a.2)
      | .error r => .refused r) := by
  have hleft : callsLeft i k = .ack :: callsLeft i (k + 1) := by rw [callsLeft_eq (lt_callCount hI hp), hkind]
  cases ha : askAck g s with
  | error r =>
    intro hfit
    obtain ⟨a, ha', -⟩ := askAck_of_fits g (hleft ▸ hfit)
    simp [ha] at ha'
  | ok a =>
    refine hf a.1 _ (called_record (askAck_ok ha) (he a.1) fun hfit => ?_)
    obtain ⟨a', ha', hfit'⟩ := askAck_of_fits g (hleft ▸ hfit)
    obtain rfl : a = a' := by simpa [ha] using ha'
    exact hfit'

/-- A passed gate moves `PH` on, a failed one ends the operation. -/
theorem passOrRaise_callMeets (c : Prop) [Decidable c] (st : Status) (hc : Called i k s u) (hk : k + 1 < callCount i)
    (hb : s.bh ≠ none) (hq : ∀ n, callKind i k ≠ .exec (n + 1)) :
    CallMeets i k s (if c then .next (advance u) else raise st u) := by
  split
  · exact advance_callMeets hI hp hc hk hb (registersLive_advance hI hp hc hq)
  · exact raise_callMeets hI st hc

/-- A transaction without bytes, after which the operation moves on. -/
theorem command_callMeets {x : Txn} (hkind : callKind i k = .exec 0) (hn : rbyteCount x = 0) (hx : IssuedTxn x)
    {onFail : Status → State → Out} (hfail : ∀ st u, Called i k s u → CallMeets i k s (onFail st u))
    (hk : k + 1 < callCount i) :
    CallMeets i k s (busExec x s fun r _ u => gate r onFail u fun u => .next (advance u)) :=
  busExec_gate_callMeets hI hp (hn ▸ hkind) hx hfail fun _ _ hb hc _ =>
    advance_callMeets hI hp hc hk hb (registersLive_advance hI hp hc fun n => by simp [hkind])

end Rules

end Sys2Proof.Machine
end

section
/-! The call lists under the invariant, and what follows for every step: the invariant is kept, `PH` moves in three ways, the
two faults of a broken invariant cannot happen, and an operation with answers that fit ends. -/

namespace Sys2Proof.Machine

/-! What the operations hold and ask, in the invariant's own terms. -/

section Operations

theorem readReg_eq {α : Type} {r : Option α} {v : α} (h : r = some v) (f : α → Out) : readReg r f = f v := by
  subst h
  rfl

variable {i : Instr} {k : Nat} {s : State}

theorem issuedTxn_tCmd {c : Byte} (hc : c ∈ ([0xF3, 0xF5, 0xE7, 0xFE] : List Byte)) : IssuedTxn (tCmd c) :=
  .inr (.inl ⟨c, hc, rfl⟩)

/-- What SETRES holds while it runs: its operand, and before the write the byte read and the merge (R198). -/
theorem registersLive_setres {r : Byte} (hp : s.ph = .run (.setres r) k) :
    RegistersLive s ↔ s.resv = some r ∧ (k = 2 → ∃ b, s.regv = some b ∧ s.merge = some (mergeRes b r)) := by
  simp only [RegistersLive, hp]

variable {c : Byte} {conv : Rounding → Raw16 → F32} (hi : IsMeasurement i c conv)
include hi

theorem registersLive_measurement (hp : s.ph = .run i k) : RegistersLive s ↔ MeasurementLive c k s := by
  rcases hi with ⟨rfl, rfl, -⟩ | ⟨rfl, rfl, -⟩ <;> simp only [RegistersLive, hp]

theorem callCount_measurement : callCount i = 4 := by
  rcases hi with ⟨rfl, -, -⟩ | ⟨rfl, -, -⟩ <;> rfl

theorem callKind_measurement :
    callKind i 0 = .exec 0 ∧ callKind i 1 = .silent ∧ callKind i 2 = .exec 3 ∧ callKind i 3 = .silent := by
  rcases hi with ⟨rfl, -, -⟩ | ⟨rfl, -, -⟩ <;> exact ⟨rfl, rfl, rfl, rfl⟩

end Operations

section CallLists

variable {i : Instr} {k : Nat} {s : State} (hI : Invariant s) (hp : s.ph = .run i k)
include hI hp

theorem selectUregCall_callMeets (hkind : callKind i k = .exec 0) (hk : k + 1 < callCount i) :
    CallMeets i k s (selectUregCall s) :=
  command_callMeets hI hp hkind rfl (issuedTxn_tCmd (by decide)) (fun st _ => raise_callMeets hI st) hk

theorem resetCall_callMeets (hkind : callKind i k = .exec 0) (hk : k + 1 < callCount i) :
    CallMeets i k s (resetCall s) :=
  command_callMeets hI hp hkind rfl (issuedTxn_tCmd (by decide)) (fun st _ => raise_callMeets hI st) hk

theorem settleCall_callMeets (hkind : callKind i k = .silent) : CallMeets i k s (settleCall s) :=
  returnOk_callMeets hI none (called_silent hI hp hkind (e := .delay 15) (.inr rfl) _)

theorem writeUregCall_callMeets (v : Byte) (hkind : callKind i k = .exec 0) : CallMeets i k s (writeUregCall v s) :=
  busExec_gate_callMeets (x := tWrite [0xE6, v]) hI hp hkind (.inr (.inr (.inl ⟨v, rfl⟩))) (fun st _ => raise_callMeets hI st)
    fun _ _ _ hc _ => returnOk_callMeets hI none hc

theorem readUregCall_callMeets (hkind : callKind i k = .exec 1) {use : Byte → State → Out}
    (hu : ∀ b u, s.bh ≠ none → Called i k s u → u.regv = some b → CallMeets i k s (use b u)) :
    CallMeets i k s (readUregCall use s) := by
  refine busExec_gate_callMeets (x := tRead 1) hI hp hkind (.inr (.inr (.inr (.inl rfl)))) (fun st _ => raise_callMeets hI st)
    fun bs u hb hc hlen => ?_
  obtain ⟨b, rfl⟩ := List.length_eq_one_iff.mp (hlen : bs.length = 1)
  exact hu b _ hb (hc.setRegv b) rfl

omit hp

theorem rdurCall_callMeets (hp : s.ph = .run .rdur k) : CallMeets .rdur k s (rdurCall k s) :=
  match k with
  | 0 => selectUregCall_callMeets hI hp rfl (by decide)
  | 1 => readUregCall_callMeets hI hp rfl fun b _ _ hc _ => returnOk_callMeets hI (some (.u8 b)) hc
  | k + 2 => absurd (lt_callCount hI hp) (by simp [callCount])

theorem wrurCall_callMeets {v : Byte} (hp : s.ph = .run (.wrur v) k) : CallMeets (.wrur v) k s (wrurCall v k s) :=
  match k with
  | 0 => writeUregCall_callMeets hI hp v rfl
  | k + 1 => absurd (lt_callCount hI hp) (by simp [callCount])

theorem getresCall_callMeets (hp : s.ph = .run .getres k) : CallMeets .getres k s (getresCall k s) :=
  match k with
  | 0 => selectUregCall_callMeets hI hp rfl (by decide)
  | 1 => readUregCall_callMeets hI hp rfl fun b _ _ hc _ => returnOk_callMeets hI (some (.u8 (resBits b))) hc
  | k + 2 => absurd (lt_callCount hI hp) (by simp [callCount])

theorem srstCall_callMeets (hp : s.ph = .run .srst k) : CallMeets .srst k s (srstCall k s) :=
  match k with
  | 0 => resetCall_callMeets hI hp rfl (by decide)
  | 1 => settleCall_callMeets hI hp rfl
  | k + 2 => absurd (lt_callCount hI hp) (by simp [callCount])

theorem setresCall_callMeets {r : Byte} (hp : s.ph = .run (.setres r) k) :
    CallMeets (.setres r) k s (setresCall k s) := by
  obtain ⟨hresv, hmerge⟩ := (registersLive_setres hp).mp hI.2.1
  match k with
  | 0 => exact selectUregCall_callMeets hI hp rfl (by simp [callCount])
  | 1 =>
    simp only [setresCall]
    refine readUregCall_callMeets hI hp rfl fun b u hb hc hregv => ?_
    have hr : u.resv = some r := hc.resv.trans hresv
    rw [readReg_eq hr]
    have hc' := hc.setMerge (mergeRes b r)
    have hph := advance_ph_run _ _ _ (hc'.ph.trans hp)
    exact advance_callMeets hI hp hc' (by simp [callCount]) hb
      ((registersLive_setres hph).mpr ⟨by simpa using hr, fun _ => ⟨b, by simpa using hregv, by simp⟩⟩)
  | 2 =>
    obtain ⟨b, -, hm⟩ := hmerge rfl
    rw [setresCall, readReg_eq hm]
    exact writeUregCall_callMeets hI hp _ rfl
  | k + 3 => exact absurd (lt_callCount hI hp) (by simp [callCount])

/-- INIT has its handle written throughout (R211). -/
theorem initCall_callMeets {b : BusId} {dp cp : Pin} {dpu cpu : Bool} (hp : s.ph = .run (.init b dp cp dpu cpu) k) :
    CallMeets (.init b dp cp dpu cpu) k s (initCall b dp cp dpu cpu k s) := by
  have hbh : s.bh ≠ none := by
    have hlive := hI.2.1
    simp only [RegistersLive, hp] at hlive
    simp [hlive]
  match k with
  | 0 =>
    exact askAck_callMeets (e := .busConfig b dp cp dpu cpu true 100000) hI hp _ rfl (fun _ => ⟨rfl, rfl⟩) fun ok _ hc =>
      passOrRaise_callMeets hI hp (ok = true) _ hc (by simp [callCount]) hbh fun _ => by simp [callKind]
  | 1 =>
    exact askAck_callMeets (e := .busInstall b) hI hp _ rfl (fun _ => trivial) fun ok _ hc =>
      passOrRaise_callMeets hI hp (ok = true) _ hc (by simp [callCount]) hbh fun _ => by simp [callKind]
  | 2 =>
    exact busExec_callMeets hI hp rfl (.inl rfl) fun r _ _ hb hc _ =>
      passOrRaise_callMeets hI hp (r = .ok) _ hc (by simp [callCount]) hb fun _ => by simp [callKind]
  | 3 => exact resetCall_callMeets hI hp rfl (by simp [callCount])
  | 4 => exact settleCall_callMeets hI hp rfl
  | k + 5 => exact absurd (lt_callCount hI hp) (by simp [callCount])

/-! The measurements. -/

section Measurement

variable {c : Byte} {conv : Rounding → Raw16 → F32} (hi : IsMeasurement i c conv)
include hi

/-- The read and the check: a frame that fails goes on to the diagnostic (R163, R164). -/
theorem readFrameCall_callMeets (hp : s.ph = .run i 2) : CallMeets i 2 s (rdvalCall conv 2 s) := by
  obtain ⟨hcmd, -⟩ := (registersLive_measurement hi hp).mp hI.2.1
  obtain ⟨-, -, hkind, -⟩ := callKind_measurement hi
  unfold rdvalCall
  refine busExec_gate_callMeets (x := tRead 3) hI hp hkind (.inr (.inr (.inr (.inr rfl))))
    (fun _ _ hc => endMeasurement_callMeets hI conv hc fun h => absurd rfl h) fun bs u hb hc hlen => ?_
  obtain ⟨b0, b1, b2, rfl⟩ := List.length_eq_three.mp (hlen : bs.length = 3)
  have hc' := hc.takeFrame b0 b1 b2
  cases hv : isCrcValid (assembleRaw b0 b1) b2 with
  | true =>
    simp only [hv, if_true]
    exact endMeasurement_callMeets hI conv hc' fun _ => rfl
  | false =>
    simp only [hv, Bool.false_eq_true, if_false]
    have hph := advance_ph_run _ _ _ (hc'.ph.trans hp)
    refine advance_callMeets hI hp hc' (by simp [callCount_measurement hi]) hb
      ((registersLive_measurement hi hph).mpr ⟨?_, fun _ => ⟨assembleRaw b0 b1, b2, ?_, ?_, hv, ?_⟩⟩)
    · simpa using hc.cmd.trans hcmd
    · simp
    · simp
    · simp [hv]

/-- The diagnostic carries the frame that failed, and the policy decides how the measurement ends (R164). -/
theorem diagnosticCall_callMeets (hp : s.ph = .run i 3) : CallMeets i 3 s (rdvalCall conv 3 s) := by
  obtain ⟨-, hframe⟩ := (registersLive_measurement hi hp).mp hI.2.1
  obtain ⟨raw, cks, hraw, hcks, hv, -⟩ := hframe rfl
  obtain ⟨-, -, -, hkind⟩ := callKind_measurement hi
  have hc : Called i 3 s (record (.diag .crcMismatch raw cks) s) :=
    called_silent (e := .diag .crcMismatch raw cks) hI hp hkind hv s.dev
  rw [rdvalCall, readReg_eq hraw, readReg_eq hcks]
  dsimp only
  split
  · exact endMeasurement_callMeets hI conv hc fun h => absurd rfl h
  · exact endMeasurement_callMeets hI conv hc fun _ => rfl

theorem rdvalCall_callMeets (hp : s.ph = .run i k) : CallMeets i k s (rdvalCall conv k s) := by
  obtain ⟨hkind0, hkind1, -, -⟩ := callKind_measurement hi
  have hcount := callCount_measurement hi
  match k with
  | 0 =>
    obtain ⟨hcmd, -⟩ := (registersLive_measurement hi hp).mp hI.2.1
    have hmem : c ∈ ([0xF3, 0xF5, 0xE7, 0xFE] : List Byte) := by
      rcases hi with ⟨-, rfl, -⟩ | ⟨-, rfl, -⟩ <;> decide
    rw [rdvalCall, readReg_eq hcmd]
    exact command_callMeets hI hp hkind0 rfl (issuedTxn_tCmd hmem)
      (fun _ _ hc => endMeasurement_callMeets hI conv hc fun h => absurd rfl h) (by simp [hcount])
  | 1 =>
    have hc := called_silent hI hp hkind1 (e := .delay 50) (.inl rfl) (devDelay 50 s.dev)
    exact advance_callMeets hI hp hc (by simp [hcount]) (bh_ne_none hI hp one_pos)
      (registersLive_advance hI hp hc fun n => by simp [hkind1])
  | 2 => exact readFrameCall_callMeets hI hi hp
  | 3 => exact diagnosticCall_callMeets hI hi hp
  | k + 4 => exact absurd (lt_callCount hI hp) (by simp [hcount])

end Measurement

/-- Every call of every operation. -/
theorem exec_callMeets (hp : s.ph = .run i k) : CallMeets i k s (exec i s) := by
  rw [exec_running (isBusOp_of_lt (lt_callCount hI hp)) hp]
  cases i with
  | rdt => exact rdvalCall_callMeets hI (.inl ⟨rfl, rfl, rfl⟩) hp
  | rdh => exact rdvalCall_callMeets hI (.inr ⟨rfl, rfl, rfl⟩) hp
  | rdur => exact rdurCall_callMeets hI hp
  | wrur => exact wrurCall_callMeets hI hp
  | getres => exact getresCall_callMeets hI hp
  | setres => exact setresCall_callMeets hI hp
  | init => exact initCall_callMeets hI hp
  | srst => exact srstCall_callMeets hI hp
  | _ => exact absurd (lt_callCount hI hp) (by simp [callCount])

end CallLists

/-! Every step. -/

section Steps

variable {i : Instr} {k : Nat} {s t : State}

/-- An accepted request has the registers its calls will read (R24, R29, R211). -/
theorem accepted_invariant (hI : Invariant s) (hi : isBusOp i = true) :
    Invariant { accepted i s with ph := .run i 0 } := by
  refine ⟨(phaseLegal_run rfl).mpr ⟨of_decide_eq_true hi, fun h => absurd h (lt_irrefl 0)⟩, ?_, ?_⟩
  · cases i <;> simp [RegistersLive, MeasurementLive, accepted]
  · simpa [Standing, ResponseLegal, LegacyLegal] using hI.standing

/-- A host operation at `IDLE`: a pure one ends, and one with external calls is accepted. -/
theorem exec_host_idle (hI : Invariant s) (hi : i.isHost = true) (hp : s.ph = .idle) :
    ∃ t, exec i s = .next t ∧ Invariant t ∧ (t.ph = .idle ∨ (isBusOp i = true ∧ t.ph = .run i 0)) := by
  rcases isPure_or_isBusOp hi with hi | hi
  · obtain ⟨v, q, c, he, -⟩ := exec_pure hi hp
    exact ⟨_, he, finish_invariant hI.standing fun _ => rfl, .inl rfl⟩
  · exact ⟨_, requestAcceptedAtIdle i s hi hp, accepted_invariant hI hi, .inr ⟨hi, rfl⟩⟩

/-- What each outcome of a step from a state of the invariant means. -/
def StepMeets (s : State) (o : Out) : Prop :=
  match o with
  | .next t =>
    Invariant t ∧ ((t.ph = s.ph ∧ (s.ph = .idle ∨ s.wire ≠ [])) ∨
      (s.ph = .idle ∧ ∃ i, isBusOp i = true ∧ t.ph = .run i 0) ∨
      ∃ i k, s.ph = .run i k ∧ (t.ph = .run i (k + 1) ∨ t.ph = .idle))
  | .fault r => r = .unwrittenHandle
  | .refused _ => True

theorem step_meets (hI : Invariant s) : StepMeets s (step s) := by
  rcases step_cases s with ⟨bs, rest, i, hw, hi, hs⟩ | ⟨i, k, hp, hs⟩ | ⟨i, rest, hp, hi, hs⟩ | ⟨hp, hs⟩ | ⟨r, hs⟩
  · rcases exec_wire hi { s with wire := rest } with ⟨d, he⟩ | ⟨r, he⟩
    · rw [hs, he]
      exact ⟨hI, .inl ⟨rfl, .inr (by simp [hw])⟩⟩
    · rw [hs, he]
      trivial
  · have hm := exec_callMeets hI hp
    rw [hs]
    cases he : exec i s with
    | next t =>
      rw [he] at hm
      exact ⟨hm.1, .inr (.inr ⟨i, k, hp, hm.2.symm.imp_left And.left⟩)⟩
    | fault r =>
      rw [he] at hm
      exact hm.1
    | refused r => trivial
  · have hI' : Invariant { s with host := rest } := hI
    obtain ⟨t, he, ht, hph⟩ := exec_host_idle hI' hi hp
    rw [hs, he]
    exact ⟨ht, hph.elim (fun h => .inl ⟨h.trans hp.symm, .inl hp⟩) fun ⟨hb, h⟩ => .inr (.inl ⟨hp, i, hb, h⟩)⟩
  · rw [hs]
    exact ⟨hI, .inl ⟨rfl, .inl hp⟩⟩
  · rw [hs]
    trivial

/-- Where the transport's answers fit, the running operation's next call leads on. -/
theorem exec_next_of_fits (hI : Invariant s) (hp : s.ph = .run i k) (hb : s.bh ≠ none) (hf : Fits (callsLeft i k) s) :
    ∃ t, exec i s = .next t ∧ Invariant t ∧ (t.ph = .idle ∨ (t.ph = .run i (k + 1) ∧ Fits (callsLeft i (k + 1)) t)) := by
  have hm := exec_callMeets hI hp
  cases he : exec i s with
  | next t =>
    rw [he] at hm
    exact ⟨t, rfl, hm.1, hm.2.imp_right fun h => ⟨h.1, h.2 hf⟩⟩
  | fault r =>
    rw [he] at hm
    exact absurd hm.2 hb
  | refused r =>
    rw [he] at hm
    exact absurd hf hm

theorem run_succ_of_step {n : Nat} (h : step s = .next t) :
    (Host.Core.run Sys2Proof.core (n + 1) s : Out) = Host.Core.run Sys2Proof.core n t := by
  have hc : Sys2Proof.core.step s = .next t := h
  simp only [Host.Core.run, hc]

/-- The calls left are made one after the other until the operation ends. -/
theorem run_ends (m : Nat) (hm : callCount i - k ≤ m) (hI : Invariant s) (hp : s.ph = .run i k) (hb : s.bh ≠ none)
    (hw : s.wire = []) (hf : Fits (callsLeft i k) s) :
    ∃ n t, n ≤ m ∧ (Host.Core.run Sys2Proof.core n s : Out) = .next t ∧ t.ph = .idle := by
  have hlt := lt_callCount hI hp
  induction m generalizing k s with
  | zero => omega
  | succ m ih =>
    obtain ⟨t, he, hIt, ht⟩ := exec_next_of_fits hI hp hb hf
    have hstep : step s = .next t := (step_fetched (fetch_running hw hp)).trans he
    rcases ht with hidle | ⟨hpt, hft⟩
    · exact ⟨1, t, by omega, run_succ_of_step hstep, hidle⟩
    · obtain ⟨-, -, hwire, -⟩ := execFrame i s t he
      obtain ⟨n, t', hn, hrun, hidle⟩ := ih (by omega) hIt hpt (bh_ne_none hIt hpt k.succ_pos) (hwire.trans hw) hft
        (lt_callCount hIt hpt)
      exact ⟨n + 1, t', by omega, (run_succ_of_step hstep).trans hrun, hidle⟩

end Steps

/-- Settles O58: a next state of `step_meets` meets the invariant. -/
theorem stepKeepsInvariant : Obligations.StepKeepsInvariant := fun s t hI h => by
  have hm := step_meets hI
  rw [h] at hm
  exact hm.1

/-- Settles O20: the ways of `PH` in `step_meets`, from what `CallMeets` says of the running operation. -/
theorem phaseAdvancesInThreeWays : Obligations.PhaseAdvancesInThreeWays := fun s t hI h => by
  have hm := step_meets hI
  rw [h] at hm
  exact hm.2

/-- Settles O59: the one fault a step can end with is that of an unwritten handle. -/
theorem invariantExcludesDeadReads : Obligations.InvariantExcludesDeadReads := fun s hI => by
  have hm := step_meets hI
  refine ⟨fun h => ?_, fun h => ?_⟩ <;>
  · rw [h] at hm
    cases hm

/-- Settles O26, by induction on the number of calls left, of which no operation has more than five. -/
theorem everyOperationEnds : Obligations.EveryOperationEnds := fun _ i _ hI hp hb hw hf =>
  run_ends 5 ((Nat.sub_le _ _).trans (callCount_le_five i)) hI hp hb hw hf

end Sys2Proof.Machine
end

section
/-! Under enforce a measurement that ends with Ok ends in its read, with a frame that passed its check (R40, R164): the other
calls move on, fail, or end with ChecksumMismatch. -/

namespace Sys2Proof.Machine

theorem statusOf_eq_ok {r : BusResult} : statusOf r = .ok ↔ r = .ok := by
  cases r <;> simp [statusOf]

theorem endMeasurement_next {conv : Rounding → Raw16 → F32} {st : Status} {v : Option Raw16} {s t : State}
    (h : endMeasurement conv st v s = .next t) :
    t.status = some st ∧ t.val = v.map .u16 ∧ t.crcOk = s.crcOk ∧ t.trace = s.trace := by
  obtain rfl : legacyView conv st v (finish st (v.map .u16) s) = t := by simpa [endMeasurement] using h
  simp

/-- A step that only moves `PH` on does not end the operation. -/
theorem advance_next_ne_idle {s t : State} {i : Instr} {k : Nat} (hp : s.ph = .run i k)
    (h : (.next (advance s) : Out) = .next t) : t.ph ≠ .idle := by
  obtain rfl : advance s = t := by simpa using h
  simp [advance_ph_run s i k hp]

/-- A transaction of a measurement after which the status is Ok has passed its gate. -/
theorem measurementExec_ok {x : Txn} {conv : Rounding → Raw16 → F32} {goOn : List Byte → State → Out} {s t : State}
    (h : (busExec x s fun r bs u => gate r (fun st u => endMeasurement conv st none u) u (goOn bs)) = .next t)
    (hst : t.status = some .ok) :
    ∃ b bs s', OnlyTransport s s' ∧ bs.length = rbyteCount x ∧
      goOn bs (record (.busExec b x 1000 .ok bs) s') = .next t := by
  obtain ⟨b, r, bs, s', -, ha, h⟩ := busExec_next h
  obtain ⟨hot, hlen⟩ := askExec_ok ha
  rcases gate_next h with ⟨rfl, h⟩ | ⟨hr, h⟩
  · exact ⟨b, bs, s', hot, by simpa using hlen, h⟩
  · obtain ⟨hst', -⟩ := endMeasurement_next h
    exact absurd (statusOf_eq_ok.mp (Option.some_inj.mp (hst'.symm.trans hst))) hr

/-- What stands in the state after a value under enforce. -/
def DeliversChecked (s t : State) : Prop :=
  t.crcOk = some true ∧
    ∃ b b0 b1 b2, t.trace = s.trace ++ [.busExec b (tRead 3) 1000 .ok [b0, b1, b2]] ∧
      isCrcValid (b0 ++ b1) b2 = true ∧ t.val = some (.u16 ((b0 ++ b1) &&& 0xFFFC))

section Calls

variable {i : Instr} {conv : Rounding → Raw16 → F32} {s t : State}

theorem readFrameCall_delivers (hp : s.ph = .run i 2) (h : rdvalCall conv 2 s = .next t) (ht : t.ph = .idle)
    (hst : t.status = some .ok) : DeliversChecked s t := by
  unfold rdvalCall at h
  obtain ⟨b, bs, s', hot, hlen, h⟩ := measurementExec_ok h hst
  obtain ⟨b0, b1, b2, rfl⟩ := List.length_eq_three.mp (hlen : bs.length = 3)
  dsimp only at h
  by_cases hv : isCrcValid (assembleRaw b0 b1) b2 = true
  · obtain ⟨-, hval, hcrc, htrace⟩ := endMeasurement_next ((if_pos hv).symm.trans h)
    have hs' : s'.trace = s.trace := hot.field State.trace
    refine ⟨by simpa [hv] using hcrc, b, b0, b1, b2, by simpa [hs'] using htrace, ?_, ?_⟩
    · rwa [← assembleRaw_append]
    · rw [← assembleRaw_append]
      exact hval
  · have hp' : s'.ph = .run i 2 := (hot.field State.ph).trans hp
    exact absurd ht (advance_next_ne_idle (s := takeFrame b0 b1 b2 (record _ s')) hp' ((if_neg hv).symm.trans h))

/-- Under enforce the diagnostic is followed by ChecksumMismatch. -/
theorem diagnosticCall_status (hpol : s.cfg.crcPolicy = .enforce) (h : rdvalCall conv 3 s = .next t) :
    t.status = some .checksumMismatch := by
  obtain ⟨raw, -, h⟩ := readReg_next h
  obtain ⟨cks, -, h⟩ := readReg_next h
  simp only [record_cfg, hpol] at h
  exact (endMeasurement_next h).1

theorem rdvalCall_delivers {k : Nat} (hpol : s.cfg.crcPolicy = .enforce) (hp : s.ph = .run i k)
    (h : rdvalCall conv k s = .next t) (ht : t.ph = .idle) (hst : t.status = some .ok) : DeliversChecked s t := by
  match k with
  | 0 =>
    obtain ⟨c, -, h⟩ := readReg_next h
    obtain ⟨b, bs, s', hot, -, h⟩ := measurementExec_ok h hst
    exact absurd ht (advance_next_ne_idle (s := record _ s') ((hot.field State.ph).trans hp) h)
  | 1 => exact absurd ht (advance_next_ne_idle (s := delay 50 s) hp h)
  | 2 => exact readFrameCall_delivers hp h ht hst
  | 3 => simp [diagnosticCall_status hpol h] at hst
  | k + 4 => cases h

end Calls

/-- Settles O34: a measurement ends in a call of its list, never where it is accepted. -/
theorem enforcedValueHasPassedCheck : Obligations.EnforcedValueHasPassedCheck := by
  intro i s t hi hpol h ht hst
  have hbus : isBusOp i = true := by rcases hi with rfl | rfl <;> rfl
  rw [exec_eq_sequenced hbus] at h
  rcases sequenced_next h with ⟨-, rfl⟩ | ⟨k, hp, hk⟩
  · cases ht
  · rcases hi with rfl | rfl <;> exact rdvalCall_delivers hpol hp hk ht hst

end Sys2Proof.Machine
end

section
/-! What the transport answers, by the head of its list of decided answers and by who is behind the bus (R58, R59, R76, R252;
log entry 2). -/

namespace Sys2Proof.Machine

section Oracle

variable {s : State} {x : Txn} {f : Dev → Bool × Dev} {r : BusResult} {bs : List Byte} {more : List Answer} {code : Nat}
  {ok : Bool} (hl : s.link = .oracle)
include hl

theorem askExec_decided_ok (ha : s.answers = .exec .ok bs :: more) :
    askExec x s =
      if bs.length = rbyteCount x then .ok (.ok, bs, { s with answers := more }) else .error .illTypedAnswer := by
  simp [askExec, hl, ha]

theorem askExec_decided_failure (ha : s.answers = .exec r bs :: more) (hr : r ≠ .ok) :
    askExec x s = .ok (r, [], { s with answers := more }) := by
  simp [askExec, hl, ha, hr]

theorem askExec_ill_typed (ha : s.answers = .ack ok :: more ∨ s.answers = .alien code :: more) :
    askExec x s = .error .illTypedAnswer := by
  rcases ha with ha | ha <;> simp [askExec, hl, ha]

theorem askExec_undecided (ha : s.answers = []) :
    ∃ r bs, askExec x s = .ok (r, bs, { s with seq := s.seq + 1 }) := by
  simp [askExec, hl, ha]

theorem askAck_decided (ha : s.answers = .ack ok :: more) : askAck f s = .ok (ok, { s with answers := more }) := by
  simp [askAck, hl, ha]

theorem askAck_ill_typed (ha : s.answers = .exec r bs :: more ∨ s.answers = .alien code :: more) :
    askAck f s = .error .illTypedAnswer := by
  rcases ha with ha | ha <;> simp [askAck, hl, ha]

theorem askAck_undecided (ha : s.answers = []) : ∃ ok, askAck f s = .ok (ok, { s with seq := s.seq + 1 }) := by
  simp [askAck, hl, ha]

end Oracle

section Responder

variable {s : State} {x : Txn} {f : Dev → Bool × Dev} (hl : s.link = .responder)
include hl

theorem askAck_responder : askAck f s = .ok ((f s.dev).1, { s with dev := (f s.dev).2 }) := by
  simp [askAck, hl]

theorem askExec_responder : askExec x s = .ok ((devRespond s.cfg.dev x s.dev).1, (devRespond s.cfg.dev x s.dev).2.1,
    { s with dev := (devRespond s.cfg.dev x s.dev).2.2 }) := by
  simp [askExec, hl]

end Responder

/-- A driver that is installed refuses to be installed again and stays as it is (R76). -/
theorem devInstall_installed {d : Dev} (hi : d.installed = true) : devInstall d = (false, d) := by
  cases d
  simp_all [devInstall]

theorem devInstall_uninstalled {d : Dev} (hi : d.installed = false) : devInstall d = (true, { d with installed := true }) := by
  simp [devInstall, hi]

/-- Settles O52: each clause is what the transport answers to one head of its list, or the responder's own answer. -/
theorem transportAnswersAreTaken : Obligations.TransportAnswersAreTaken := by
  intro s x r bs more code ok f
  refine ⟨fun hl => ⟨?_, askExec_decided_failure hl, ?_, askExec_ill_typed hl, ?_, askAck_decided hl, askAck_ill_typed hl,
    askAck_undecided hl⟩, fun hl => ⟨askAck_responder hl, ?_, ?_, askExec_responder hl⟩⟩
  · rintro ha rfl hlen
    rw [askExec_decided_ok hl ha, if_pos hlen]
  · intro ha hlen
    rw [askExec_decided_ok hl ha, if_neg hlen]
  · intro ha
    obtain ⟨r, bs, h⟩ := askExec_undecided hl ha
    exact ⟨r, bs, h, (askExec_ok h).2⟩
  · intro hi
    rw [askAck_responder hl, devInstall_installed hi]
  · intro hi
    rw [askAck_responder hl, devInstall_uninstalled hi]

end Sys2Proof.Machine
end

section
/-! The register and the measurement as the reference responder keeps them (R53, R75, R76, R82): its answer to each transaction
of the block, the checksum law that its measurement frames meet (R114), and what SETRES does to a register that another master
writes between its read and its write (R73, R201). -/

namespace Sys2Proof.Machine

/-! ### The division leaves the checksum of the value, with the checksum received added to it -/

/-- Sixteen iterations at most never look at the low eight bits, so what is added there stays (R111). -/
theorem foldl_crcIter_xor_checksum {n : Nat} (hn : n ≤ 16) (w : W24) (c : Byte) :
    (List.range n).foldl crcIter (w ^^^ c.setWidth 24) = (List.range n).foldl crcIter w ^^^ c.setWidth 24 := by
  induction n with
  | zero => rfl
  | succ n ih =>
    have hbit : (c.setWidth 24).getLsbD (23 - n) = false := by
      rw [BitVec.getLsbD_setWidth, BitVec.getLsbD_of_ge c _ (by omega), Bool.and_false]
    rw [List.range_succ, List.foldl_append, List.foldl_append, ih (by omega)]
    simp only [List.foldl_cons, List.foldl_nil, crcIter, BitVec.getLsbD_xor, hbit, Bool.xor_false]
    split
    · rw [BitVec.xor_assoc, BitVec.xor_comm (c.setWidth 24), ← BitVec.xor_assoc]
    · rfl

/-- Iteration `n` clears bit `23 - n` and leaves the bits above it, where the shifted generator has none (R84, R111). -/
theorem crcIter_getLsbD_of_ge {n j : Nat} {w : W24} (hn : n < 24) (hw : ∀ i, 24 - n ≤ i → w.getLsbD i = false)
    (hj : 23 - n ≤ j) : (crcIter w n).getLsbD j = false := by
  have htop : Config.poly24.getLsbD 23 = true := rfl
  unfold crcIter
  rcases Nat.eq_or_lt_of_le hj with rfl | hj
  · split
    next h => simp [h, BitVec.getLsbD_ushiftRight, show n + (23 - n) = 23 by omega, htop]
    next h => simpa using h
  · have hold : w.getLsbD j = false := hw j (by omega)
    split
    · simp [hold, BitVec.getLsbD_ushiftRight, BitVec.getLsbD_of_ge Config.poly24 (n + j) (by omega)]
    · exact hold

theorem foldl_crcIter_getLsbD_of_ge {n : Nat} (hn : n ≤ 24) (w : W24) {j : Nat} (hj : 24 - n ≤ j) :
    ((List.range n).foldl crcIter w).getLsbD j = false := by
  induction n generalizing j with
  | zero => exact BitVec.getLsbD_of_ge w j hj
  | succ n ih =>
    rw [List.range_succ, List.foldl_append]
    exact crcIter_getLsbD_of_ge (by omega) (fun i hi => ih (by omega) hi) (by omega)

/-- The remainder lies in the low eight bits. -/
theorem setWidth_crcDivide (w : W24) : ((crcDivide w).setWidth 8).setWidth 24 = crcDivide w := by
  apply BitVec.eq_of_getLsbD_eq
  intro j hj
  by_cases h : j < 8
  · simp [h, hj]
  · have hz : (crcDivide w).getLsbD j = false := foldl_crcIter_getLsbD_of_ge (by omega) w (by omega)
    simp [h, hz]

theorem crcLoad_xor_checksum (v : Raw16) (c : Byte) : crcLoad v c = crcLoad v 0 ^^^ c.setWidth 24 := by
  have hc : (0 : Byte).setWidth 24 = 0#24 := rfl
  rw [crcLoad, crcLoad, hc, BitVec.or_zero]
  apply BitVec.eq_of_getLsbD_eq
  intro j hj
  by_cases h : j < 8
  · simp [h]
  · simp [h, BitVec.getLsbD_of_ge c j (by omega)]

theorem crcDivide_crcLoad (v : Raw16) (c : Byte) : crcDivide (crcLoad v c) = (crc8 v ^^^ c).setWidth 24 := by
  rw [crcLoad_xor_checksum, BitVec.setWidth_xor, crc8, setWidth_crcDivide]
  exact foldl_crcIter_xor_checksum le_rfl _ c

/-- A frame with the checksum of its value passes the check (R114). -/
theorem isCrcValid_crc8 (v : Raw16) : isCrcValid v (crc8 v) = true := by
  simp [isCrcValid, crcDivide_crcLoad]

/-! ### The answers of the responder, in the order of R76 -/

theorem writeBytes_tWrite (bs : List Byte) : writeBytes (tWrite bs) = some bs := by
  have hdata : writeData (bs.map .wbyte ++ [.stop]) = some bs := by
    induction bs with
    | nil => rfl
    | cons b bs ih => simp [writeData, ih]
  simpa [writeBytes, tWrite] using hdata

theorem devRespond_uninstalled {d : Dev} (hi : d.installed = false) (p : DevParams) (t : Txn) :
    devRespond p t d = (.invalidDriverState, [], d) := by
  simp [devRespond, hi]

theorem devRespond_silent {d : Dev} (hi : d.installed = true) (h : d.present = false ∨ d.rebooting = true) (p : DevParams)
    (t : Txn) : devRespond p t d = (.transactionFailed, [], d) := by
  simp [devRespond, hi, h]

section Responder

variable {d : Dev} {p : DevParams} (hi : d.installed = true) (hp : d.present = true) (hr : d.rebooting = false)
include hi hp hr

theorem devRespond_measured {m : Raw16} (hm : devMeasured p d = some m) (he : 50 ≤ d.elapsedMs) :
    devRespond p (tRead 3) d = (.ok, measFrame m, { d with pend := .none }) := by
  simp [devRespond, hi, hp, hr, hm, he, tRead, tProbe, Config.tConvMs]

theorem devRespond_unmeasured (h : devMeasured p d = none ∨ d.elapsedMs < 50) :
    devRespond p (tRead 3) d = (.transactionFailed, [], d) := by
  cases hm : devMeasured p d with
  | none => simp [devRespond, hi, hp, hr, hm, tRead, tProbe]
  | some m =>
    have he : ¬ 50 ≤ d.elapsedMs := by simpa [hm] using h
    simp [devRespond, hi, hp, hr, hm, he, tRead, tProbe, Config.tConvMs]

theorem devRespond_tRead_one :
    devRespond p (tRead 1) d = if d.selUr then (.ok, [d.ur], d) else (.transactionFailed, [], d) := by
  simp [devRespond, hi, hp, hr, tRead, tProbe]

theorem devRespond_tWrite {b : Byte} {bs : List Byte} {d' : Dev} (hw : devWritten p (b :: bs) d = some d') :
    devRespond p (tWrite (b :: bs)) d = (.ok, [], d') := by
  have hprobe : tWrite (b :: bs) ≠ tProbe := by simp [tWrite, tProbe]
  have hread (n : Nat) : tWrite (b :: bs) ≠ tRead n := by simp [tWrite, tRead]
  simp [devRespond, hi, hp, hr, hprobe, hread, writeBytes_tWrite, hw]

theorem devRespond_writeUr (v : Byte) : devRespond p (tWrite [0xE6, v]) d = (.ok, [], devWriteUr v d) :=
  devRespond_tWrite hi hp hr rfl

theorem devRespond_selectUr : devRespond p (tWrite [0xE7]) d = (.ok, [], devSelectUr d) :=
  devRespond_tWrite hi hp hr rfl

end Responder

/-- Settles O50: each clause is one answer of the responder, and the register written is the one read. -/
theorem responderReadsBackWrittenRegister : Obligations.ResponderReadsBackWrittenRegister := by
  intro p d x v
  refine ⟨fun hi => devRespond_uninstalled hi p x, fun hi h => devRespond_silent hi h p x, fun hi hp hr => ⟨?_, ?_⟩⟩
  · exact ⟨devWriteUr v d, devSelectUr (devWriteUr v d), devRespond_writeUr hi hp hr v, devRespond_selectUr hi hp hr,
      devRespond_tRead_one hi hp hr⟩
  · intro hs
    rw [devRespond_tRead_one hi hp hr, hs]
    rfl

/-! ### The measurement frame -/

/-- The two status bits are outside the mask (R93), so they do not reach the masked value. -/
theorem statusMask_clears_status (m : Raw16) (st : BitVec 2) :
    (m &&& Config.statusMask ||| st.setWidth 16) &&& 0xFFFC#16 = m &&& 0xFFFC := by
  have hst : st.setWidth 16 &&& 0xFFFC#16 = 0#16 := by decide +revert
  rw [BitVec.and_or_distrib_right, hst, BitVec.or_zero, BitVec.and_assoc]
  rfl

/-- With a conversion pending there is a raw value, and it is the input but for its status bits. -/
theorem devMeasured_of_pending {d : Dev} {m : Raw16}
    (h : (d.pend = .temperature ∧ m = d.measT) ∨ (d.pend = .humidity ∧ m = d.measH)) (p : DevParams) :
    ∃ raw, devMeasured p d = some raw ∧ raw &&& 0xFFFC#16 = m &&& 0xFFFC := by
  rcases h with ⟨hpend, rfl⟩ | ⟨hpend, rfl⟩
  · exact ⟨_, by simp only [devMeasured, hpend], statusMask_clears_status d.measT p.stT⟩
  · exact ⟨_, by simp only [devMeasured, hpend], statusMask_clears_status d.measH p.stH⟩

/-- The two bytes of a value, most significant first, are the value (R82, R91). -/
theorem append_bytes_of_raw (v : Raw16) : ((v >>> 8).setWidth 8 ++ v.setWidth 8 : BitVec 16) = v := by
  apply BitVec.eq_of_getLsbD_eq
  intro j hj
  rw [BitVec.getLsbD_append]
  by_cases h : j < 8
  · simp [h]
  · simp [h, show j - 8 < 8 by omega, show 8 + (j - 8) = j by omega]

/-- Settles O49: the frame is that of the raw value, whose checksum it carries. -/
theorem responderFramePassesCheck : Obligations.ResponderFramePassesCheck := by
  intro p d m hi hp hr
  refine ⟨fun hpend he => ?_, fun h => devRespond_unmeasured hi hp hr ?_⟩
  · obtain ⟨raw, hraw, hmask⟩ := devMeasured_of_pending hpend p
    refine ⟨_, _, _, devRespond_measured hi hp hr hraw he, ?_, ?_⟩
    · rw [append_bytes_of_raw]
      exact isCrcValid_crc8 raw
    · rw [append_bytes_of_raw]
      exact hmask
  · exact h.imp_left fun hpend => by simp only [devMeasured, hpend]

/-! ### The write of SETRES after a write of another master -/

/-- A ready responder takes the write of the register, which ends the operation with Ok (R184). -/
theorem writeUregCall_responder {s : State} {b : BusId} (hb : s.bh = some b) (hl : s.link = .responder)
    (hi : s.dev.installed = true) (hp : s.dev.present = true) (hr : s.dev.rebooting = false) (v : Byte) :
    ∃ t, writeUregCall v s = .next t ∧ t.ph = .idle ∧ t.status = some .ok ∧ t.dev = { s.dev with ur := v } := by
  have ha : askExec (tWrite [0xE6, v]) s = .ok (.ok, [], { s with dev := devWriteUr v s.dev }) := by
    rw [askExec_responder hl, devRespond_writeUr hi hp hr v]
  exact ⟨_, (busExec_answered hb ha _).trans (gate_ok _ _ _), rfl, rfl, rfl⟩

/-- A frame `[0xE6, v]` of another master replaces the register of a device that takes commands (R53, R73). -/
theorem step_foreign_writeUr {s : State} {v : Byte} {rest : List (List Byte)} (hw : s.wire = [0xE6, v] :: rest)
    (hp : s.dev.present = true) (hr : s.dev.rebooting = false) :
    step s = .next { s with wire := rest, dev := { s.dev with ur := v } } := by
  have hrun : step s = exec (.wWrUreg v) { s with wire := rest } :=
    step_fetched ((fetch_foreign_frame hw).trans (fetchFrame_decoded rfl _))
  have htakes := deviceTakes_eq (devWriteUr v) { s with wire := rest }
  rw [if_pos (by simp [hp, hr])] at htakes
  exact hrun.trans htakes

theorem mergeRes_eq (r x : Byte) : mergeRes r x = (r &&& 0x7E) ||| (x &&& 0x81) := rfl

/-- SETRES writes the merge it holds (R198), and with a ready responder that ends it. -/
theorem step_setres_write {s : State} {x m : Byte} {b : BusId} (hw : s.wire = []) (hph : s.ph = .run (.setres x) 2)
    (hm : s.merge = some m) (hb : s.bh = some b) (hl : s.link = .responder) (hi : s.dev.installed = true)
    (hp : s.dev.present = true) (hr : s.dev.rebooting = false) :
    ∃ t, step s = .next t ∧ t.ph = .idle ∧ t.status = some .ok ∧ t.dev = { s.dev with ur := m } := by
  have hstep : step s = writeUregCall m s := by
    calc step s = exec (.setres x) s := step_fetched (fetch_running hw hph)
      _ = readReg s.merge (fun m => writeUregCall m s) := exec_running rfl hph
      _ = writeUregCall m s := readReg_eq hm _
  rw [hstep]
  exact writeUregCall_responder hb hl hi hp hr m

/-- Settles O48: the write of SETRES is of the merge made when the register was read, which the other master's frame does not
change. -/
theorem setresOverwritesForeignWrite : Obligations.SetresOverwritesForeignWrite := by
  intro s x v b hlive hph hb hl hi hp hr hw
  have hforeign := step_foreign_writeUr hw hp hr
  obtain ⟨-, hread⟩ := (registersLive_setres hph).mp hlive
  obtain ⟨r, hregv, hmerge⟩ := hread rfl
  obtain ⟨t, hsetres, hidle, hok, hdev⟩ :=
    step_setres_write (s := { s with wire := [], dev := { s.dev with ur := v } }) rfl hph hmerge hb hl hi hp hr
  refine ⟨hforeign, r, t, hregv, ?_, hidle, hok, ?_⟩
  · exact (run_succ_of_step hforeign).trans (run_succ_of_step hsetres)
  · rw [hdev, mergeRes_eq]

end Sys2Proof.Machine
end

section
/-! Encoding and decoding (R80, R81, R86, R90, R97, R98): an encoding decodes to its instruction; what decodes is, on the wire,
that instruction's encoding, and on the host interface a request with that encoding's selector; what is outside the maps is
rejected. -/

namespace Sys2Proof.Machine

section Codec

variable {c : Byte} {bs : List Byte} {r : HostRequest} {i : Instr}

theorem decode_encode (i : Instr) : decode (encode i) = .ok i := by
  cases i <;> rfl

theorem decode_of_encode_eq {f : Frame} (h : encode i = f) : decode f = .ok i := h ▸ decode_encode i

theorem encode_wf (i : Instr) : (encode i).wf = true := by
  cases i <;> rfl

/-! ### The wire -/

/-- The seven commands (R86), the one with a data byte first. -/
theorem mem_commandBytes :
    c ∈ commandBytes ↔ c = 0xE6 ∨ c = 0xF3 ∨ c = 0xF5 ∨ c = 0xE3 ∨ c = 0xE5 ∨ c = 0xE7 ∨ c = 0xFE := by
  simp only [commandBytes, Config.cmdTrigTNh, Config.cmdTrigHNh, Config.cmdTrigTH, Config.cmdTrigHH, Config.cmdWrUreg,
    Config.cmdRdUreg, Config.cmdSrst, List.mem_cons, List.not_mem_nil]
  tauto

/-- A first byte outside the map is no command, whatever follows it (R97). -/
theorem decodeWire_undefined (hc : c ∉ commandBytes) (bs : List Byte) :
    decodeWire (c :: bs) = .error .undefinedCommand := by
  simp only [mem_commandBytes, not_or] at hc
  simp only [decodeWire, hc, if_false]

/-- A command without a data byte decodes only where nothing follows it (R81). -/
theorem bareCommand_ok {j : Instr} (h : (if bs = [] then .ok j else .error DecodeError.malformedFrame) = Except.ok i) :
    bs = [] ∧ j = i := by
  split at h
  · exact ⟨‹_›, Except.ok.inj h⟩
  · cases h

/-- The wire frame of an instruction is the only one that decodes to it. -/
theorem encode_of_decodeWire (h : decodeWire bs = .ok i) : encode i = .wire bs := by
  cases bs with
  | nil => cases h
  | cons c rest =>
    by_cases hc : c ∈ commandBytes
    · rcases mem_commandBytes.mp hc with rfl | rfl | rfl | rfl | rfl | rfl | rfl
      · match rest, h with
        | [v], h => cases h; rfl
      all_goals
        obtain ⟨rfl, rfl⟩ := bareCommand_ok h
        rfl
    · rw [decodeWire_undefined hc] at h
      cases h

/-- A well-formed wire frame is the encoding of a wire command (R81, R86). -/
theorem exists_encode_of_wireWf (h : wireWf bs = true) : ∃ i, encode i = .wire bs := by
  match bs, h with
  | [c], h =>
    obtain ⟨hc, hne⟩ : c ∈ commandBytes ∧ c ≠ 0xE6 := by simpa [wireWf, Config.cmdWrUreg] using h
    rcases mem_commandBytes.mp hc with rfl | rfl | rfl | rfl | rfl | rfl | rfl
    · exact absurd rfl hne
    · exact ⟨.wTrigTNh, rfl⟩
    · exact ⟨.wTrigHNh, rfl⟩
    · exact ⟨.wTrigTH, rfl⟩
    · exact ⟨.wTrigHH, rfl⟩
    · exact ⟨.wRdUreg, rfl⟩
    · exact ⟨.wSrst, rfl⟩
  | [c, v], h =>
    obtain rfl : c = 0xE6 := by simpa [wireWf, Config.cmdWrUreg] using h
    exact ⟨.wWrUreg v, rfl⟩

theorem decodeWire_ok_iff_wf : (∃ i, decodeWire bs = .ok i) ↔ wireWf bs = true := by
  constructor
  · rintro ⟨i, h⟩
    have hwf := encode_wf i
    rwa [encode_of_decodeWire h] at hwf
  · intro h
    obtain ⟨i, hi⟩ := exists_encode_of_wireWf h
    exact ⟨i, decode_of_encode_eq hi⟩

/-! ### The host interface -/

/-- A request with the selector of a host frame differs from it in the ports alone. -/
theorem hostFrame_of_toNat_eq {op : BitVec 4} (h : r.op.toNat = op.toNat) (p : Ports) :
    hostFrame op p = .host { op := r.op, ports := p } := by
  rw [BitVec.eq_of_toNat_eq h]
  rfl

theorem encode_of_decodeHost (h : decodeHost r = .ok i) : ∃ p, encode i = .host { op := r.op, ports := p } := by
  unfold decodeHost at h
  split at h <;> cases h <;> exact ⟨_, hostFrame_of_toNat_eq ‹_› _⟩

/-- Every selector but 15 names an operation (R90, R98). -/
theorem exists_decodeHost_of_wf (h : r.wf = true) : ∃ i, decodeHost r = .ok i := by
  have hne : r.op ≠ 15#4 := by simpa [HostRequest.wf] using h
  have hlt : r.op.toNat < 15 := by bv_omega
  unfold decodeHost
  interval_cases r.op.toNat <;> exact ⟨_, rfl⟩

theorem decodeHost_ok_iff_wf : (∃ i, decodeHost r = .ok i) ↔ r.wf = true := by
  refine ⟨?_, exists_decodeHost_of_wf⟩
  rintro ⟨i, h⟩
  obtain ⟨p, hp⟩ := encode_of_decodeHost h
  have hwf := encode_wf i
  rwa [hp] at hwf

end Codec

/-- Settles O53: `encode` and `decode` meet at each instruction. -/
theorem decodeInvertsEncode : Obligations.DecodeInvertsEncode := fun i => ⟨decode_encode i, encode_wf i⟩

/-- Settles O54: a wire frame has no bits but those of the encoding, a request keeps its selector, and well-formedness is tested
on these alone. -/
theorem decodedFrameIsEncoded : Obligations.DecodedFrameIsEncoded := by
  refine ⟨fun _ _ h => encode_of_decodeWire h, fun _ _ h => encode_of_decodeHost h, fun f => ?_⟩
  cases f with
  | host r => exact decodeHost_ok_iff_wf
  | wire bs => exact decodeWire_ok_iff_wf

/-- Settles O55: each word is the encoding of its operation. -/
theorem wordsOfTheTablesDecode : Obligations.WordsOfTheTablesDecode := by
  refine ⟨?_, ?_, ?_, ?_, ?_, ?_, ?_, ?_, ?_⟩ <;> exact decode_of_encode_eq rfl

theorem step_of_decode_error {s : State} {r : HostRequest} {rest : List HostRequest} {e : DecodeError} (hw : s.wire = [])
    (hp : s.ph = .idle) (hh : s.host = r :: rest) (hd : decode (.host r) = .error e) :
    step s = .refused (decodeRefusal e) := by
  simp [step, fetch_request hw hp hh, fetchFrame, hd]

/-- Settles O25: selector 15 reaches the last row of the host map, and a byte outside the seven the last of the wire map. -/
theorem reservedEncodingsRejected : Obligations.ReservedEncodingsRejected :=
  ⟨fun _ _ _ hw hp hh => step_of_decode_error hw hp hh rfl, fun _ bs hc => decodeWire_undefined hc bs⟩

end Sys2Proof.Machine
end

section
/-! The bits of the resolution merge (R94, R95), and what the wire commands do to the device (R68, R76, R86, R96). -/

namespace Sys2Proof.Machine

/-! ### The merge -/

/-- The resolution bits are 7 and 0 (R94). -/
theorem getLsbD_resMask (j : Fin 8) : Config.resMask.getLsbD j = decide (j.val = 0 ∨ j.val = 7) := by
  decide +revert

/-- Settles O42: bit by bit the mask selects the operand or the register. -/
theorem mergePreservesReservedBits : Obligations.MergePreservesReservedBits := by
  refine fun regv resv => ⟨mergeRes_eq regv resv, fun j => ?_⟩
  rw [mergeRes, BitVec.getLsbD_or, BitVec.getLsbD_and, BitVec.getLsbD_and, BitVec.getLsbD_not, getLsbD_resMask]
  by_cases hj : j.val = 0 ∨ j.val = 7
  · simp only [hj, j.isLt, decide_true, Bool.not_true, Bool.and_false, Bool.and_true, Bool.false_or, if_true]
  · simp only [hj, j.isLt, decide_true, decide_false, Bool.not_false, Bool.and_false, Bool.and_true, Bool.or_false,
      if_false]

/-! ### The device -/

section Device

variable {s : State}

theorem deviceTakes_ready (hp : s.dev.present = true) (hr : s.dev.rebooting = false) (f : Dev → Dev) :
    deviceTakes f s = .next { s with dev := f s.dev } := by
  simp [deviceTakes, hp, hr]

theorem deviceTakes_ignored (h : s.dev.present = false ∨ s.dev.rebooting = true) (f : Dev → Dev) :
    deviceTakes f s = .next s := by
  rcases h with h | h <;> simp [deviceTakes, h]

end Device

/-- Settles O46: each of the five is `deviceTakes` of its effect. -/
theorem wireCommandsActOnDevice : Obligations.WireCommandsActOnDevice := by
  refine fun s v => ⟨fun hp hr => ?_, fun h i hi => ?_⟩
  · refine ⟨?_, ?_, ?_, ?_, ?_⟩ <;> exact deviceTakes_ready hp hr _
  · simp only [List.mem_cons, List.not_mem_nil, or_false] at hi
    rcases hi with rfl | rfl | rfl | rfl | rfl <;> exact deviceTakes_ignored h _

/-- Settles O47: the two hold-mode triggers are the two wire commands the device does not take (R96). -/
theorem holdModeTriggersRefused : Obligations.HoldModeTriggersRefused := fun _ => ⟨rfl, rfl⟩

end Sys2Proof.Machine
end

section
/-! The division of CRCCHK (R110 to R115): the verdict it answers, what one iteration does to the working register, which
checksums pass it, and the byte-serial form of the checksum. -/

namespace Sys2Proof.Machine

/-! ### One iteration -/

/-- The generator lies in bits 23 to 15 (R84). -/
theorem getLsbD_poly24_of_outside {j : Nat} (hj : j < 15 ∨ 23 < j) : Config.poly24.getLsbD j = false := by
  rcases hj with hj | hj
  · have hlow : ∀ k : Fin 15, Config.poly24.getLsbD k = false := by decide
    exact hlow ⟨j, hj⟩
  · exact BitVec.getLsbD_of_ge _ _ hj

theorem getLsbD_crcIter (w : W24) (i j : Nat) :
    (crcIter w i).getLsbD j = (w.getLsbD j ^^ (w.getLsbD (23 - i) && Config.poly24.getLsbD (i + j))) := by
  unfold crcIter
  cases w.getLsbD (23 - i) <;> simp [BitVec.getLsbD_xor, BitVec.getLsbD_ushiftRight]

/-- Settles O2: bit `j` of the shifted generator is its bit `i + j`, set at the bit tested and clear outside bits 23 to 15. -/
theorem crcIterationClearsTestedBit : Obligations.CrcIterationClearsTestedBit := by
  refine fun w i hi => ⟨fun h => if_pos h, fun h => if_neg (by simp [h]), ?_, fun j hj => ?_, rfl⟩
  · have htop : Config.poly24.getLsbD (i + (23 - i)) = true := by rw [Nat.add_sub_cancel' (by omega)]; rfl
    rw [getLsbD_crcIter, htop, Bool.and_true, Bool.xor_self]
  · rw [getLsbD_crcIter, getLsbD_poly24_of_outside (by omega), Bool.and_false, Bool.xor_false]

/-! ### The verdict -/

/-- Settles O1: the working register is loaded with the concatenation, and the end of the operation clears it. -/
theorem crcchkReturnsDivisionVerdict : Obligations.CrcchkReturnsDivisionVerdict := by
  intro s raw crc hp
  rw [← crcLoad_append]
  calc exec (.crcchk raw crc) s
    _ = execCrcchk raw crc s := rfl
    _ = returnOk (some (.bool (isCrcValid raw crc))) (crcEval raw crc s) := whenIdle_idle hp _

/-- Settles O3: the remainder is the sum of the two checksums, which is zero where they are equal. -/
theorem crcValidExactlyForCrc8 : Obligations.CrcValidExactlyForCrc8 := by
  intro v c
  rw [isCrcValid, crcDivide_crcLoad, Bool.eq_iff_iff, beq_iff_eq, beq_iff_eq]
  constructor
  · intro h
    have hxor : crc8 v ^^^ c = 0#8 := by simpa using congrArg (BitVec.setWidth 8) h
    exact (BitVec.xor_eq_zero_iff.mp hxor).symm
  · rintro rfl
    rw [BitVec.xor_self]
    rfl

/-- Settles O4: a byte with one bit flipped is another byte. -/
theorem crcDetectsChecksumBitFlip : Obligations.CrcDetectsChecksumBitFlip := by
  refine fun v k => ⟨isCrcValid_crc8 v, ?_⟩
  have hflip : (1 : Byte) <<< k.val ≠ 0#8 := by decide +revert
  rw [crcValidExactlyForCrc8, beq_eq_false_iff_ne]
  exact fun h => hflip (by simpa using h)

/-! ### The byte-serial form -/

/-- The register of the byte-serial form where iteration `i` of the division has it, its top bit at bit `23 - i`. -/
def serialWindow (i : Nat) (r : Byte) : W24 := r.setWidth 24 <<< (16 - i)

@[simp] theorem serialWindow_xor (i : Nat) (r b : Byte) : serialWindow i (r ^^^ b) = serialWindow i r ^^^ serialWindow i b := by
  rw [serialWindow, BitVec.setWidth_xor, BitVec.shiftLeft_xor_distrib]; rfl

theorem getLsbD_serialWindow_of_ge {i j : Nat} (hi : i ≤ 16) (hj : 24 - i ≤ j) (b : Byte) :
    (serialWindow i b).getLsbD j = false := by
  rw [serialWindow, BitVec.getLsbD_shiftLeft, BitVec.getLsbD_setWidth, BitVec.getLsbD_of_ge b _ (by omega), Bool.and_false,
    Bool.and_false]

theorem getLsbD_serialWindow_top {i : Nat} (hi : i < 16) (r : Byte) : (serialWindow i r).getLsbD (23 - i) = r.msb := by
  have hge : ¬ 23 - i < 16 - i := by omega
  have hlt : 23 - i < 24 := by omega
  rw [serialWindow, BitVec.getLsbD_shiftLeft, BitVec.getLsbD_setWidth, BitVec.msb_eq_getLsbD_last,
    show 23 - i - (16 - i) = 7 by omega]
  simp [hge, hlt]

/-- The generator without its top bit is `0x31`, and the top bit cancels the bit that the shift drops (R114). -/
theorem setWidth_crcSerialBit (r : Byte) :
    (crcSerialBit r).setWidth 24 = if r.msb then r.setWidth 24 <<< 1 ^^^ 0x131 else r.setWidth 24 <<< 1 := by
  decide +revert

/-- One iteration of the division is one bit of the byte-serial form, whatever stands below in the bits it does not test. -/
theorem crcIter_serialWindow {i : Nat} (hi : i < 16) (r : Byte) {d : W24} (hd : d.getLsbD (23 - i) = false) :
    crcIter (serialWindow i r ^^^ d) i = serialWindow (i + 1) (crcSerialBit r) ^^^ d := by
  have hpoly : Config.poly24 >>> i = 0x131#24 <<< (15 - i) := by
    have h : ∀ k : Fin 16, Config.poly24 >>> k.val = 0x131#24 <<< (15 - k.val) := by decide
    exact h ⟨i, hi⟩
  have hshift : serialWindow i r = (r.setWidth 24 <<< 1) <<< (15 - i) := by
    rw [serialWindow, ← BitVec.shiftLeft_add, show 1 + (15 - i) = 16 - i by omega]
  have hnext : serialWindow (i + 1) (crcSerialBit r) =
      if r.msb then serialWindow i r ^^^ Config.poly24 >>> i else serialWindow i r := by
    rw [hpoly, hshift, ← BitVec.shiftLeft_xor_distrib, serialWindow, setWidth_crcSerialBit, Nat.sub_add_eq 16 i 1]
    rw [show 16 - i - 1 = 15 - i by omega]
    split <;> rfl
  rw [crcIter, BitVec.getLsbD_xor, getLsbD_serialWindow_top hi, hd, Bool.xor_false, hnext]
  split
  · rw [BitVec.xor_assoc, BitVec.xor_comm d, ← BitVec.xor_assoc]
  · rfl

/-- `n` iterations from `i` on are `n` bits of the byte-serial form. -/
theorem foldl_crcIter_serialWindow {i n : Nat} (hn : i + n ≤ 16) (r : Byte) {d : W24}
    (hd : ∀ j, 24 - (i + n) ≤ j → d.getLsbD j = false) :
    (List.range' i n).foldl crcIter (serialWindow i r ^^^ d) =
      serialWindow (i + n) ((List.range n).foldl (fun r _ => crcSerialBit r) r) ^^^ d := by
  induction n with
  | zero => rfl
  | succ n ih =>
    rw [List.range'_concat, List.foldl_append, ih (by omega) (fun j hj => hd j (by omega)), List.range_succ,
      List.foldl_append, Nat.one_mul]
    exact crcIter_serialWindow (by omega) _ (hd _ (by omega))

theorem foldl_crcIter_crcSerialByte {i : Nat} (hi : i ≤ 8) (r b : Byte) {d : W24}
    (hd : ∀ j, 24 - (i + 8) ≤ j → d.getLsbD j = false) :
    (List.range' i 8).foldl crcIter (serialWindow i (r ^^^ b) ^^^ d) = serialWindow (i + 8) (crcSerialByte r b) ^^^ d :=
  foldl_crcIter_serialWindow (by omega) (r ^^^ b) hd

/-- The two bytes of the value stand in the windows of iterations 0 and 8 (R114). -/
theorem crcLoad_eq_serialWindow_xor (v : Raw16) :
    crcLoad v 0 = serialWindow 0 ((v >>> 8).setWidth 8) ^^^ serialWindow 8 (v.setWidth 8) := by
  have hzero : (0 : Byte).setWidth 24 = 0#24 := rfl
  apply BitVec.eq_of_getLsbD_eq
  intro j hj
  simp only [crcLoad, hzero, BitVec.or_zero, serialWindow, BitVec.getLsbD_xor, BitVec.getLsbD_shiftLeft,
    BitVec.getLsbD_setWidth, BitVec.getLsbD_ushiftRight]
  rcases Nat.lt_or_ge j 16 with h16 | h16
  · have hlow : j - 8 < 8 := by omega
    have hlt : j - 8 < 24 := by omega
    simp [hj, h16, hlow, hlt]
  · have hlow : ¬ j - 8 < 8 := by omega
    have hhigh : j - 16 < 8 := by omega
    simp [hlow, hhigh, show ¬ j < 8 by omega, show ¬ j < 16 by omega, show 8 + (j - 16) = j - 8 by omega,
      show j - 8 < 24 by omega, show j - 16 < 24 by omega]

/-- The first eight iterations take the upper byte in and leave the lower one, which the next eight take in with the rest. -/
theorem crcDivide_serialWindow_xor (hi lo : Byte) :
    crcDivide (serialWindow 0 hi ^^^ serialWindow 8 lo) = serialWindow 16 (crcSerialByte (crcSerialByte 0 hi) lo) := by
  have hfirst : (List.range' 0 8).foldl crcIter (serialWindow 0 hi ^^^ serialWindow 8 lo) =
      serialWindow 8 (crcSerialByte 0 hi ^^^ lo) := by
    have hd : ∀ j, 24 - (0 + 8) ≤ j → (serialWindow 8 lo).getLsbD j = false :=
      fun _ hj => getLsbD_serialWindow_of_ge (by decide) hj lo
    have h := foldl_crcIter_crcSerialByte (by decide) 0 hi hd
    rwa [show (0 : Byte) ^^^ hi = hi from BitVec.zero_xor, ← serialWindow_xor] at h
  have hsecond : (List.range' 8 8).foldl crcIter (serialWindow 8 (crcSerialByte 0 hi ^^^ lo)) =
      serialWindow 16 (crcSerialByte (crcSerialByte 0 hi) lo) := by
    simpa using foldl_crcIter_crcSerialByte (i := 8) (d := 0#24) (by decide) (crcSerialByte 0 hi) lo
      fun _ _ => BitVec.getLsbD_zero
  rw [crcDivide, show List.range 16 = List.range' 0 8 ++ List.range' 8 8 from rfl, List.foldl_append, hfirst, hsecond]

/-- Settles O5: the value stands in the two windows, and the last window is the low byte. -/
theorem crcByteSerialFormAgrees : Obligations.CrcByteSerialFormAgrees := by
  intro v
  rw [crc8, crcLoad_eq_serialWindow_xor, crcDivide_serialWindow_xor]
  simp [serialWindow, crc8Serial]

end Sys2Proof.Machine
end

section
/-! The conversions (R130 to R145): what each is at `IDLE`, which rationals a binary32 holds exactly, and what the law of R143
says of what PPRES and DEWPT deliver. -/

namespace Sys2Proof.Machine

/-! ### What each conversion is at `IDLE` -/

section Idle

variable {s : State}

theorem exec_cvtt (hp : s.ph = .idle) (raw : Raw16) :
    exec (.cvtt raw) s = returnOk (some (.f32 (convT s.cfg.round raw))) s := whenIdle_idle hp _

theorem exec_cvth (hp : s.ph = .idle) (raw : Raw16) : exec (.cvth raw) s = returnOk (some (.f32 (convH raw))) s :=
  whenIdle_idle hp _

theorem exec_c2f (hp : s.ph = .idle) (c : F32) :
    exec (.c2f c) s = if f32Finite c then returnOk (some (.f32 (convC2f s.cfg.round c))) s else returnAny s := by
  rw [exec, execC2f, whenIdle_idle hp]

theorem exec_cmprh (hp : s.ph = .idle) (t h : F32) :
    exec (.cmprh t h) s =
      if f32Finite t && f32Finite h then returnOk (some (.f32 (convCmprh s.cfg.round t h))) s else returnAny s := by
  rw [exec, execCmprh, whenIdle_idle hp]

theorem exec_ppres (hp : s.ph = .idle) (t : F32) :
    exec (.ppres t) s = if tempDomain t then returnOk (some (.f32 (Config.numPpres t))) s else returnAny s := by
  rw [exec, execPpres, whenIdle_idle hp]

theorem exec_dewpt (hp : s.ph = .idle) (t h : F32) :
    exec (.dewpt t h) s =
      if tempDomain t && humidityDomain h then returnOk (some (.f32 (Config.numDewpt t h))) s else returnAny s := by
  rw [exec, execDewpt, whenIdle_idle hp]

theorem exec_c2f_finite (hp : s.ph = .idle) {c : F32} (hc : f32Finite c = true) :
    exec (.c2f c) s = returnOk (some (.f32 (convC2f s.cfg.round c))) s := (exec_c2f hp c).trans (if_pos hc)

theorem exec_cmprh_finite (hp : s.ph = .idle) {t h : F32} (ht : f32Finite t = true) (hh : f32Finite h = true) :
    exec (.cmprh t h) s = returnOk (some (.f32 (convCmprh s.cfg.round t h))) s :=
  (exec_cmprh hp t h).trans (if_pos (Bool.and_eq_true_iff.mpr ⟨ht, hh⟩))

theorem exec_ppres_inside (hp : s.ph = .idle) {t : F32} (ht : tempDomain t = true) :
    exec (.ppres t) s = returnOk (some (.f32 (Config.numPpres t))) s := (exec_ppres hp t).trans (if_pos ht)

theorem exec_dewpt_inside (hp : s.ph = .idle) {t h : F32} (ht : tempDomain t = true) (hh : humidityDomain h = true) :
    exec (.dewpt t h) s = returnOk (some (.f32 (Config.numDewpt t h))) s :=
  (exec_dewpt hp t h).trans (if_pos (Bool.and_eq_true_iff.mpr ⟨ht, hh⟩))

end Idle

/-- Settles O10: each of the four conversions is a conditional whose other branch draws any value. -/
theorem conversionsOutsideDomainDeliverSomeValue : Obligations.ConversionsOutsideDomainDeliverSomeValue := by
  intro s i hp hout
  suffices exec i s = returnAny s from ⟨_, this⟩
  rcases hout with ⟨c, rfl, hc⟩ | ⟨t, h, rfl, hth⟩ | ⟨t, rfl, ht⟩ | ⟨t, h, rfl, hth⟩
  · exact (exec_c2f hp c).trans (if_neg (Bool.eq_false_iff.mp hc))
  · exact (exec_cmprh hp t h).trans (if_neg (Bool.eq_false_iff.mp hth))
  · exact (exec_ppres hp t).trans (if_neg (Bool.eq_false_iff.mp ht))
  · exact (exec_dewpt hp t h).trans (if_neg (Bool.eq_false_iff.mp hth))

/-! ### The rounded conversions -/

theorem cvttReal_eq (raw : Raw16) : cvttReal raw = ((4393 * (raw.toNat : ℤ) - 76759040 : ℤ) : ℚ) / 1638400 := by
  unfold cvttReal
  push_cast
  ring

theorem cvthReal_eq (raw : Raw16) : cvthReal raw = ((125 * (raw.toNat : ℤ) - 393216 : ℤ) : ℚ) / 65536 := by
  unfold cvthReal
  push_cast
  ring

theorem c2fReal_eq (c : ℚ) : c2fReal c = (9 * c + 160) / 5 := by
  unfold c2fReal
  ring

theorem cmprhReal_eq (t h : ℚ) : cmprhReal t h = (20 * h + 3 * t - 75) / 20 := by
  unfold cmprhReal
  ring

/-- Settles O6: the formula of R131 over one denominator. -/
theorem cvttRoundsExactQuotient : Obligations.CvttRoundsExactQuotient := by
  intro s raw hp hr
  rw [exec_cvtt hp, hr, ← cvttReal_eq]
  rfl

/-- Settles O8: the formula of R133 over one denominator. -/
theorem c2fRoundsExactValue : Obligations.C2fRoundsExactValue := by
  intro s c hp hr hc
  rw [exec_c2f_finite hp hc, hr, ← c2fReal_eq]
  rfl

/-- Settles O9: the formula of R134 over one denominator. -/
theorem cmprhRoundsExactValue : Obligations.CmprhRoundsExactValue := by
  intro s t h hp hr ht hh
  rw [exec_cmprh_finite hp ht hh, hr, ← cmprhReal_eq]
  rfl

/-- Settles O12: the rounding parameter selects the function that delivers. -/
theorem otherBuildRoundingDelivers : Obligations.OtherBuildRoundingDelivers := by
  intro s raw c t h hp hr hc ht hh
  rw [exec_cvtt hp, exec_c2f_finite hp hc, exec_cmprh_finite hp ht hh, hr]
  exact ⟨rfl, rfl, rfl⟩

/-! ### The rationals a binary32 holds exactly -/

/-- Of a value below 2 ^ 24 units `ulp E` no place above that unit falls away. -/
theorem lowPlaces_le {q : ℚ} {E : Nat} (h : |q| < 2 ^ 24 * ulp E) : lowPlaces q ≤ E := by
  by_contra! hlt
  have hbig : 2 ^ 23 * ulp (lowPlaces q) ≤ |q| := (le_div_iff₀ (ulp_pos _)).mp (le_scaled (by omega))
  have hulp : ulp (E + 1) ≤ ulp (lowPlaces q) := ulp_mono hlt
  rw [ulp_add] at hulp
  linarith

/-- Rounding keeps a value that lies on the grid of its own scale. -/
theorem f32Val_rne32_of_onGrid {q : ℚ} (hq : |q| < 2 ^ 128 - 2 ^ 103) (hgrid : OnGrid (lowPlaces q) |q|) :
    f32Val (rne32 q) = q := by
  have habs : roundedAbs q = |q| := by
    have hle := (roundedAbs_nearest hgrid).1
    rwa [sub_self, abs_zero, abs_nonpos_iff, sub_eq_zero] at hle
  rw [f32Val_rne32 hq, habs, signOf_mul_abs]

/-- A significand of at most 24 places is kept exactly. -/
theorem f32Val_rne32_of_significand {q : ℚ} {n : ℤ} {E : Nat} (hq : q = n * ulp E) (hn : |n| < 2 ^ 24)
    (hlt : |q| < 2 ^ 128 - 2 ^ 103) : f32Val (rne32 q) = q := by
  have habs : |q| = (|n| : ℤ) * ulp E := by rw [hq, abs_mul, abs_of_pos (ulp_pos E), Int.cast_abs]
  have hE : lowPlaces q ≤ E :=
    lowPlaces_le (habs.trans_lt (mul_lt_mul_of_pos_right (by exact_mod_cast hn) (ulp_pos E)))
  obtain ⟨j, hj⟩ := Nat.exists_eq_add_of_le hE
  refine f32Val_rne32_of_onGrid hlt (.inl ⟨|n| * 2 ^ j, ?_⟩)
  rw [habs, hj, ulp_add]
  push_cast
  ring

/-- Settles O7: the numerator has 23 places and the denominator is a power of two. -/
theorem cvthIsExact : Obligations.CvthIsExact := by
  intro s raw hp
  have hn : |125 * (raw.toNat : ℤ) - 393216| < 2 ^ 23 := by
    have := raw.isLt
    rw [abs_lt]
    omega
  have hq : cvthReal raw = (125 * (raw.toNat : ℤ) - 393216 : ℤ) * ulp 133 := by
    rw [cvthReal_eq, div_eq_mul_inv]
    norm_num [ulp]
  have hlt : |cvthReal raw| < 2 ^ 128 - 2 ^ 103 := by
    have hn' : |((125 * (raw.toNat : ℤ) - 393216 : ℤ) : ℚ)| < 2 ^ 23 := by exact_mod_cast hn
    rw [hq, abs_mul, abs_of_pos (ulp_pos 133)]
    exact (mul_lt_mul_of_pos_right hn' (ulp_pos 133)).trans (by norm_num [ulp])
  refine ⟨convH raw, rne32_finite hlt, ?_, exec_cvth hp raw⟩
  rw [← cvthReal_eq]
  exact f32Val_rne32_of_significand hq (hn.trans (by norm_num)) hlt

/-! ### The domain of R143 and the numerics law -/

theorem tempDomain_iff {t : F32} :
    tempDomain t = true ↔ f32Finite t = true ∧ -(4685 / 100) ≤ f32Val t ∧ f32Val t ≤ 12887 / 100 := by
  simp only [tempDomain, Bool.and_eq_true, decide_eq_true_eq, and_assoc]

theorem humidityDomain_iff {h : F32} :
    humidityDomain h = true ↔ f32Finite h = true ∧ 0 < f32Val h ∧ f32Val h ≤ 200 := by
  simp only [humidityDomain, Bool.and_eq_true, decide_eq_true_eq, and_assoc]

/-- Settles O11: the operands are in the two domains. -/
theorem ppresDewptDeliverNumericsFields : Obligations.PpresDewptDeliverNumericsFields := by
  intro s t h hp ht hl hu
  have htemp : tempDomain t = true := tempDomain_iff.mpr ⟨ht, hl, hu⟩
  exact ⟨exec_ppres_inside hp htemp, fun hh h0 h200 => exec_dewpt_inside hp htemp (humidityDomain_iff.mpr ⟨hh, h0, h200⟩)⟩

theorem real_bounds_of_tempDomain {t : F32} (ht : tempDomain t = true) :
    -(4685 / 100) ≤ (f32Val t : ℝ) ∧ (f32Val t : ℝ) ≤ 12887 / 100 := by
  obtain ⟨-, hl, hu⟩ := tempDomain_iff.mp ht
  have hl' := (Rat.cast_le (K := ℝ)).mpr hl
  have hu' := (Rat.cast_le (K := ℝ)).mpr hu
  push_cast at hl' hu'
  exact ⟨hl', hu'⟩

theorem real_bounds_of_humidityDomain {h : F32} (hh : humidityDomain h = true) :
    0 < (f32Val h : ℝ) ∧ (f32Val h : ℝ) ≤ 200 := by
  obtain ⟨-, h0, h200⟩ := humidityDomain_iff.mp hh
  exact ⟨by exact_mod_cast h0, by exact_mod_cast h200⟩

/-- `DP(x, 100) = x` (R143): the logarithm of R136 undoes the power of R135. -/
theorem dp_at_hundred {x d : ℝ} (hd : IsDP x 100 d) : d = x := by
  obtain ⟨p, hp, rfl⟩ := hd
  have hlog : Real.logb 10 (100 * p / 100) = 81332 / 10000 - 176239 / 100 / (x + 23566 / 100) := by
    rw [mul_div_cancel_left₀ p (by norm_num), hp, Real.logb_rpow (by norm_num) (by norm_num)]
  rw [hlog, sub_sub_cancel_left, neg_div_neg_eq, div_div_cancel₀ (by norm_num), add_sub_cancel_right]

theorem f32Finite_of_abs_lt {f : F32} (h : |(f32Val f : ℝ)| < 2 ^ 128) : f32Finite f = true := by
  by_contra hf
  have hge : (2 : ℝ) ^ 128 ≤ |(f32Val f : ℝ)| := by
    exact_mod_cast abs_f32Val_ge_of_not_finite (Bool.eq_false_iff.mpr hf)
  linarith

/-- What is as near to a moderate number as a tolerance of at most 2 ^ 64 allows is finite (log entry 22). -/
theorem finite_or_wide_tolerance {f : F32} {tol : NNRat} {x u : ℝ} (hnear : |(f32Val f : ℝ) - x| ≤ ((tol : ℚ) : ℝ) * u)
    (hx : |x| ≤ 10 ^ 9) (hu0 : 0 ≤ u) (hu : u ≤ 10 ^ 9) : f32Finite f = true ∨ 2 ^ 64 < tol := by
  rcases lt_or_ge (2 ^ 64) tol with hwide | hnarrow
  · exact .inr hwide
  · refine .inl (f32Finite_of_abs_lt ?_)
    have htol : ((tol : ℚ) : ℝ) ≤ 2 ^ 64 := by exact_mod_cast hnarrow
    calc |(f32Val f : ℝ)|
      _ ≤ |(f32Val f : ℝ) - x| + |x| := by linarith [abs_sub_abs_le_abs_sub (f32Val f : ℝ) x]
      _ ≤ 2 ^ 64 * 10 ^ 9 + 10 ^ 9 := add_le_add (hnear.trans (mul_le_mul htol hu hu0 (by positivity))) hx
      _ < 2 ^ 128 := by norm_num

/-- Settles O15: the law of R143 at the operands, with the bounds of both formulas on its domain. -/
theorem numericsLawBoundsDeliveredValues : Obligations.NumericsLawBoundsDeliveredValues := by
  intro rtol atolDp s t h pp dp ⟨hppres, hdewpt⟩ hp ht hh hpp hdp
  obtain ⟨htl, htu⟩ := real_bounds_of_tempDomain ht
  obtain ⟨hh0, hh200⟩ := real_bounds_of_humidityDomain hh
  obtain ⟨hppl, hppu⟩ := pp_bounds hpp htl
  have hdpu : |dp| ≤ 1000 := dp_bounds hdp htl htu hh0 hh200
  have hpp0 : 0 ≤ pp := by linarith
  have hnearP := hppres t pp ht hpp
  have hnearD := hdewpt t h dp ht hh hdp
  refine ⟨Config.numPpres t, Config.numDewpt t h, exec_ppres_inside hp ht, exec_dewpt_inside hp ht hh, hnearP, hnearD,
    fun h100 => ?_, ?_, ?_⟩
  · rw [h100, Rat.cast_ofNat] at hdp
    have hdt : dp = f32Val t := dp_at_hundred hdp
    exact hdt ▸ hnearD
  · exact finite_or_wide_tolerance hnearP (by rwa [abs_of_nonneg hpp0]) hpp0 hppu
  · exact finite_or_wide_tolerance (u := 1) (by rwa [mul_one]) (hdpu.trans (by norm_num)) zero_le_one (by norm_num)

end Sys2Proof.Machine
end

section
/-! The calls a running operation makes, by its call list (R161, R181, R184, R196, R198, R211, R218): each shared operation
adds the call it is named for, and what follows the call adds none. -/

namespace Sys2Proof.Machine

section NextCall

variable {i : Instr} {k : Nat} {s u : State}

/-- A next state of the outcome has one event more in its trace than `s`, and it is call `k` of `i`. -/
def MakesListedCall (i : Instr) (k : Nat) (s : State) (o : Out) : Prop :=
  ∀ t, o = .next t → ∃ e, t.trace = s.trace ++ [e] ∧ CallIs i k s e

theorem MakesNoCall.trace_eq {f : State → Out} {t : State} (hf : MakesNoCall true f) (h : f s = .next t) :
    t.trace = s.trace := by
  have hkept := hf s t h
  simp only [kept, Prod.mk.injEq] at hkept
  obtain ⟨-, -, -, -, -, htrace, -⟩ := hkept
  exact htrace

/-- A call of the list that is recorded, and after which no other is made. -/
theorem record_makesListedCall {e : Event} {f : State → Out} (htrace : u.trace = s.trace) (he : CallIs i k s e)
    (hf : MakesNoCall true f) : MakesListedCall i k s (f (record e u)) := fun _ h =>
  ⟨e, (hf.trace_eq h).trans (congrArg (· ++ [e]) htrace), he⟩

theorem OnlyTransport.trace_eq (h : OnlyTransport s u) : u.trace = s.trace := h.field State.trace

/-- The rows of the call lists that are no `BusExec` have no transaction, so a row with one is a `BusExec` of it. -/
theorem callIs_busExec {x : Txn} {b : BusId} (hx : callTxn i k s = some x) (hb : s.bh = some b) (r : BusResult)
    (bs : List Byte) : CallIs i k s (.busExec b x 1000 r bs) := by
  unfold CallIs
  split
  case h_9 => exact ⟨x, b, r, bs, hx, hb, rfl⟩
  all_goals cases hx

theorem busExec_makesListedCall {x : Txn} {f : BusResult → List Byte → State → Out} (hx : callTxn i k s = some x)
    (hf : ∀ r bs, MakesNoCall true (f r bs)) : MakesListedCall i k s (busExec x s f) := by
  intro t h
  obtain ⟨b, r, bs, u, hb, ha, h⟩ := busExec_next h
  exact record_makesListedCall (askExec_ok ha).1.trace_eq (callIs_busExec hx hb r bs) (hf r bs) t h

theorem busConfig_makesListedCall (b : BusId) (dp cp : Pin) (dpu cpu : Bool) {f : Bool → State → Out}
    (hf : ∀ ok, MakesNoCall true (f ok)) :
    MakesListedCall (.init b dp cp dpu cpu) 0 s (busConfig b dp cp dpu cpu s f) := by
  intro t h
  obtain ⟨ok, u, ha, h⟩ := busConfig_next h
  have he : CallIs (.init b dp cp dpu cpu) 0 s (.busConfig b dp cp dpu cpu true 100000 ok) := ⟨ok, rfl⟩
  exact record_makesListedCall (askAck_ok ha).trace_eq he (hf ok) t h

theorem busInstall_makesListedCall (b : BusId) (dp cp : Pin) (dpu cpu : Bool) {f : Bool → State → Out}
    (hf : ∀ ok, MakesNoCall true (f ok)) : MakesListedCall (.init b dp cp dpu cpu) 1 s (busInstall b s f) := by
  intro t h
  obtain ⟨ok, u, ha, h⟩ := busInstall_next h
  have he : CallIs (.init b dp cp dpu cpu) 1 s (.busInstall b ok) := ⟨ok, rfl⟩
  exact record_makesListedCall (askAck_ok ha).trace_eq he (hf ok) t h

theorem busExec_raise_makesListedCall {x : Txn} {goOn : List Byte → State → Out} (hx : callTxn i k s = some x)
    (hg : ∀ bs, MakesNoCall true (goOn bs)) :
    MakesListedCall i k s (busExec x s fun r bs u => gate r raise u (goOn bs)) :=
  busExec_makesListedCall hx fun r bs => gate_makesNoCall r raise_makesNoCall (hg bs)

theorem fault_makesListedCall (r : Fault) : MakesListedCall i k s (.fault r) := fun _ h => nomatch h

/-! The call lists. -/

theorem selectUregCall_makesListedCall (hx : callTxn i k s = some (tWrite [0xE7])) :
    MakesListedCall i k s (selectUregCall s) :=
  busExec_raise_makesListedCall hx fun _ => advance_makesNoCall

theorem readUregCall_makesListedCall {use : Byte → State → Out} (hx : callTxn i k s = some (tRead 1))
    (hu : ∀ b, MakesNoCall true (use b)) : MakesListedCall i k s (readUregCall use s) := by
  refine busExec_raise_makesListedCall hx fun bs s t h => ?_
  match bs, h with
  | [b], h => exact hu b { s with regv := some b } t h

theorem writeUregCall_makesListedCall {v : Byte} (hx : callTxn i k s = some (tWrite [0xE6, v])) :
    MakesListedCall i k s (writeUregCall v s) :=
  busExec_raise_makesListedCall hx fun _ => returnOk_makesNoCall none

theorem resetCall_makesListedCall (hx : callTxn i k s = some (tWrite [0xFE])) : MakesListedCall i k s (resetCall s) :=
  busExec_raise_makesListedCall hx fun _ => advance_makesNoCall

theorem settleCall_makesListedCall (he : CallIs i k s (.delay 15)) : MakesListedCall i k s (settleCall s) :=
  record_makesListedCall (u := { s with dev := devDelay 15 s.dev }) rfl he (returnOk_makesNoCall none)

theorem rdurCall_makesListedCall (k : Nat) (s : State) : MakesListedCall .rdur k s (rdurCall k s) :=
  match k with
  | 0 => selectUregCall_makesListedCall rfl
  | 1 => readUregCall_makesListedCall rfl fun _ => returnOk_makesNoCall _
  | _ + 2 => fault_makesListedCall _

theorem wrurCall_makesListedCall (v : Byte) (k : Nat) (s : State) : MakesListedCall (.wrur v) k s (wrurCall v k s) :=
  match k with
  | 0 => writeUregCall_makesListedCall rfl
  | _ + 1 => fault_makesListedCall _

theorem getresCall_makesListedCall (k : Nat) (s : State) : MakesListedCall .getres k s (getresCall k s) :=
  match k with
  | 0 => selectUregCall_makesListedCall rfl
  | 1 => readUregCall_makesListedCall rfl fun _ => returnOk_makesNoCall _
  | _ + 2 => fault_makesListedCall _

theorem srstCall_makesListedCall (k : Nat) (s : State) : MakesListedCall .srst k s (srstCall k s) :=
  match k with
  | 0 => resetCall_makesListedCall rfl
  | 1 => settleCall_makesListedCall rfl
  | _ + 2 => fault_makesListedCall _

/-- The write of SETRES is of the merge it holds (R198). -/
theorem setresCall_makesListedCall (r : Byte) (k : Nat) (s : State) :
    MakesListedCall (.setres r) k s (setresCall k s) :=
  match k with
  | 0 => selectUregCall_makesListedCall rfl
  | 1 => readUregCall_makesListedCall rfl mergeAndAdvance_makesNoCall
  | 2 => fun t h => by
    obtain ⟨m, hm, h⟩ := readReg_next h
    exact writeUregCall_makesListedCall (by simp [callTxn, hm]) t h
  | _ + 3 => fault_makesListedCall _

theorem initCall_makesListedCall (b : BusId) (dp cp : Pin) (dpu cpu : Bool) (k : Nat) (s : State) :
    MakesListedCall (.init b dp cp dpu cpu) k s (initCall b dp cp dpu cpu k s) :=
  match k with
  | 0 => busConfig_makesListedCall b dp cp dpu cpu fun ok => passOrRaise_makesNoCall (ok = true) _
  | 1 => busInstall_makesListedCall b dp cp dpu cpu fun ok => passOrRaise_makesNoCall (ok = true) _
  | 2 => busExec_makesListedCall rfl fun r _ => passOrRaise_makesNoCall (r = .ok) _
  | 3 => resetCall_makesListedCall rfl
  | 4 => settleCall_makesListedCall rfl
  | _ + 5 => fault_makesListedCall _

/-! The measurements. -/

/-- What follows the read of a measurement: the end with the masked value, or the diagnostic next (R163, R164). -/
theorem checkFrame_makesNoCall (conv : Rounding → Raw16 → F32) (b0 b1 b2 : Byte) :
    MakesNoCall true fun u =>
      if isCrcValid (assembleRaw b0 b1) b2 then
        endMeasurement conv .ok (some (maskStatus (assembleRaw b0 b1))) (takeFrame b0 b1 b2 u)
      else .next (advance (takeFrame b0 b1 b2 u)) := by
  intro u t h
  split at h
  · exact endMeasurement_makesNoCall conv _ _ (takeFrame b0 b1 b2 u) t h
  · exact advance_makesNoCall (takeFrame b0 b1 b2 u) t h

section Measurement

variable {c : Byte} {conv : Rounding → Raw16 → F32} (hi : IsMeasurement i c conv)
include hi

theorem callTxn_measurement (s : State) : callTxn i 0 s = some (tCmd c) ∧ callTxn i 2 s = some (tRead 3) := by
  rcases hi with ⟨rfl, rfl, -⟩ | ⟨rfl, rfl, -⟩ <;> exact ⟨rfl, rfl⟩

theorem callIs_measurement_delay (s : State) : CallIs i 1 s (.delay 50) := by
  rcases hi with ⟨rfl, -, -⟩ | ⟨rfl, -, -⟩ <;> rfl

theorem callIs_measurement_diag {raw : Raw16} {cks : Byte} (hraw : s.raw = some raw) (hcks : s.cks = some cks) :
    CallIs i 3 s (.diag .crcMismatch raw cks) := by
  rcases hi with ⟨rfl, -, -⟩ | ⟨rfl, -, -⟩ <;> exact ⟨raw, cks, hraw, hcks, rfl⟩

theorem readFrameCall_makesListedCall (s : State) : MakesListedCall i 2 s (rdvalCall conv 2 s) := by
  obtain ⟨-, hx⟩ := callTxn_measurement hi s
  unfold rdvalCall
  refine busExec_makesListedCall hx fun r bs =>
    gate_makesNoCall r (fun st => endMeasurement_makesNoCall conv st none) fun u t h => ?_
  match bs, h with
  | [b0, b1, b2], h => exact checkFrame_makesNoCall conv b0 b1 b2 u t h

theorem diagnosticCall_makesListedCall (s : State) : MakesListedCall i 3 s (rdvalCall conv 3 s) := by
  intro t h
  obtain ⟨raw, hraw, h⟩ := readReg_next h
  obtain ⟨cks, hcks, h⟩ := readReg_next h
  refine ⟨.diag .crcMismatch raw cks, ?_, callIs_measurement_diag hi hraw hcks⟩
  dsimp only at h
  split at h <;> exact (endMeasurement_makesNoCall conv _ _).trace_eq h

/-- The trigger is of the command byte the measurement holds (R24, R161). -/
theorem rdvalCall_makesListedCall (hcmd : s.cmd = some c) (k : Nat) : MakesListedCall i k s (rdvalCall conv k s) := by
  match k with
  | 0 =>
    obtain ⟨hx, -⟩ := callTxn_measurement hi s
    rw [rdvalCall, readReg_eq hcmd]
    exact busExec_makesListedCall hx fun r _ =>
      gate_makesNoCall r (fun st => endMeasurement_makesNoCall conv st none) advance_makesNoCall
  | 1 =>
    exact record_makesListedCall (u := { s with dev := devDelay 50 s.dev }) rfl (callIs_measurement_delay hi s)
      advance_makesNoCall
  | 2 => exact readFrameCall_makesListedCall hi s
  | 3 => exact diagnosticCall_makesListedCall hi s
  | _ + 4 => exact fault_makesListedCall _

end Measurement

end NextCall

/-- Settles O21: `exec` of the running operation is its call list, and the invariant holds the command byte of a measurement. -/
theorem callsFollowCallList : Obligations.CallsFollowCallList := by
  intro s t i k hI hp h
  have hlive := hI.2.1
  rw [exec_running (isBusOp_of_lt (lt_callCount hI hp)) hp] at h
  suffices hcall : MakesListedCall i k s (callOf i k s) from hcall t h
  cases i with
  | rdt =>
    have hi : IsMeasurement .rdt 0xF3 convT := .inl ⟨rfl, rfl, rfl⟩
    exact rdvalCall_makesListedCall hi ((registersLive_measurement hi hp).mp hlive).1 k
  | rdh =>
    have hi : IsMeasurement .rdh 0xF5 fun _ raw => convH raw := .inr ⟨rfl, rfl, rfl⟩
    exact rdvalCall_makesListedCall hi ((registersLive_measurement hi hp).mp hlive).1 k
  | rdur => exact rdurCall_makesListedCall k s
  | wrur v => exact wrurCall_makesListedCall v k s
  | getres => exact getresCall_makesListedCall k s
  | setres r => exact setresCall_makesListedCall r k s
  | init b dp cp dpu cpu => exact initCall_makesListedCall b dp cp dpu cpu k s
  | srst => exact srstCall_makesListedCall k s
  | _ => exact fun _ h => nomatch h

end Sys2Proof.Machine
end

section
/-! The measurements call by call (R161 to R167): the trigger, the wait, the read with its check, and the diagnostic, and the
run of a measurement whose frame is valid. -/

namespace Sys2Proof.Machine

theorem advance_eq {s : State} {i : Instr} {k : Nat} (hp : s.ph = .run i k) :
    advance s = { s with ph := .run i (k + 1) } := by
  simp only [advance, hp]

section Measurement

variable {i : Instr} {c : Byte} {conv : Rounding → Raw16 → F32} (hi : IsMeasurement i c conv)
include hi

theorem isBusOp_measurement : isBusOp i = true := by
  rcases hi with ⟨rfl, -, -⟩ | ⟨rfl, -, -⟩ <;> rfl

theorem callOf_measurement : callOf i = rdvalCall conv := by
  rcases hi with ⟨rfl, -, rfl⟩ | ⟨rfl, -, rfl⟩ <;> rfl

theorem accepted_measurement (s : State) : accepted i s = { s with cmd := some c } := by
  rcases hi with ⟨rfl, rfl, -⟩ | ⟨rfl, rfl, -⟩ <;> rfl

theorem exec_measurement {s : State} {k : Nat} (hp : s.ph = .run i k) : exec i s = rdvalCall conv k s := by
  rw [exec_running (isBusOp_measurement hi) hp, callOf_measurement hi]

end Measurement

/-- A step with no foreign frame on the bus is the running operation's next call. -/
theorem run_succ_of_exec {i : Instr} {k n : Nat} {s t : State} (hw : s.wire = []) (hp : s.ph = .run i k)
    (h : exec i s = .next t) : (Host.Core.run Sys2Proof.core (n + 1) s : Out) = Host.Core.run Sys2Proof.core n t :=
  run_succ_of_step ((step_fetched (fetch_running hw hp)).trans h)

/-- Settles O30: the trigger is of the command byte held, and its gate decides. -/
theorem measurementTriggers : Obligations.MeasurementTriggers := by
  intro i c conv s s' b r bs hi hp hcmd hb ha u
  have hpu : u.ph = .run i 0 := ((askExec_ok ha).1.field State.ph).trans hp
  have hcall : exec i s = gate r (fun st u => endMeasurement conv st none u) u fun u => .next (advance u) := by
    rw [exec_measurement hi hp, rdvalCall, readReg_eq hcmd]
    exact busExec_answered hb ha _
  refine ⟨?_, fun hr => ?_⟩
  · rintro rfl
    rw [hcall, gate_ok, advance_eq hpu]
  · rw [hcall, gate_failed hr]
    rfl

/-- Settles O31: the second call is the delay alone. -/
theorem measurementWaits : Obligations.MeasurementWaits := by
  intro i c conv s hi hp
  have hpu : (delay 50 s).ph = .run i 1 := hp
  rw [exec_measurement hi hp]
  exact congrArg _ (advance_eq hpu)

/-- Settles O32: the third call is the read, and the verdict on its frame decides. -/
theorem measurementReadsAndChecks : Obligations.MeasurementReadsAndChecks := by
  intro i c conv s s' b b0 b1 b2 hi hp hb ha u
  have hpu : (takeFrame b0 b1 b2 u).ph = .run i 2 := ((askExec_ok ha).1.field State.ph).trans hp
  have hcall : exec i s = if isCrcValid (b0 ++ b1) b2 then
      endMeasurement conv .ok (some ((b0 ++ b1) &&& 0xFFFC)) (takeFrame b0 b1 b2 u)
    else .next (advance (takeFrame b0 b1 b2 u)) := by
    rw [exec_measurement hi hp, ← assembleRaw_append, rdvalCall]
    exact (busExec_answered hb ha _).trans (gate_ok _ _ _)
  refine ⟨fun hv => ?_, fun hv => ?_⟩
  · rw [hcall, if_pos hv]
    simp only [endMeasurement, finish, takeFrame, crcEval, killDatapath, assembleRaw_append, hv, Option.map_some]
  · rw [hcall, if_neg (by simp [hv]), advance_eq hpu]
    simp only [takeFrame, crcEval, assembleRaw_append, crcLoad_append, hv]

/-- Settles O33: the fourth call is the diagnostic of the frame held, and the policy decides. -/
theorem mismatchPolicyDecides : Obligations.MismatchPolicyDecides := by
  intro i c conv s raw cks hi hp hraw hcks u
  rw [exec_measurement hi hp, rdvalCall, readReg_eq hraw, readReg_eq hcks]
  refine ⟨fun hpol => ?_, fun hpol => ?_⟩ <;>
  · simp only [record_cfg, hpol]
    rfl

/-! The run of a measurement on decided answers, with no foreign frame on the bus. -/

section Run

variable {i : Instr} {c : Byte} {conv : Rounding → Raw16 → F32} {s : State} {b : BusId} {more : List Answer} {n : Nat}
  (hi : IsMeasurement i c conv) (hw : s.wire = [])
include hi hw

theorem run_request {q : HostRequest} {rest : List HostRequest} (hp : s.ph = .idle) (hh : s.host = q :: rest)
    (hd : decode (.host q) = .ok i) : (Host.Core.run Sys2Proof.core (n + 1) s : Out) =
      Host.Core.run Sys2Proof.core n { s with host := rest, cmd := some c, ph := .run i 0 } := by
  have hstep : step s = exec i { s with host := rest } :=
    step_fetched ((fetch_request hw hp hh).trans (fetchFrame_decoded hd _))
  have haccept := requestAcceptedAtIdle i { s with host := rest } (isBusOp_measurement hi) hp
  rw [accepted_measurement hi] at haccept
  exact run_succ_of_step (hstep.trans haccept)

theorem run_trigger (hp : s.ph = .run i 0) (hcmd : s.cmd = some c) (hb : s.bh = some b) (hl : s.link = .oracle)
    (ha : s.answers = .exec .ok [] :: more) : (Host.Core.run Sys2Proof.core (n + 1) s : Out) =
      Host.Core.run Sys2Proof.core n { s with
        ph := .run i 1, answers := more, trace := s.trace ++ [.busExec b (tWrite [c]) 1000 .ok []] } := by
  have hask : askExec (tWrite [c]) s = .ok (.ok, [], { s with answers := more }) :=
    (askExec_decided_ok hl ha).trans (if_pos rfl)
  obtain ⟨hok, -⟩ := measurementTriggers i c conv s _ b _ _ hi hp hcmd hb hask
  exact run_succ_of_exec hw hp (hok rfl)

theorem run_wait (hp : s.ph = .run i 1) : (Host.Core.run Sys2Proof.core (n + 1) s : Out) =
    Host.Core.run Sys2Proof.core n { s with
      ph := .run i 2, trace := s.trace ++ [.delay 50], dev := devDelay 50 s.dev } :=
  run_succ_of_exec hw hp (measurementWaits i c conv s hi hp)

theorem run_read {b0 b1 b2 : Byte} (hp : s.ph = .run i 2) (hb : s.bh = some b) (hl : s.link = .oracle)
    (ha : s.answers = .exec .ok [b0, b1, b2] :: more) (hv : isCrcValid (b0 ++ b1) b2 = true) :
    (Host.Core.run Sys2Proof.core (n + 1) s : Out) =
      Host.Core.run Sys2Proof.core n (legacyView conv .ok (some ((b0 ++ b1) &&& 0xFFFC)) { killDatapath s with
        ph := .idle, answers := more, status := some .ok, val := some (.u16 ((b0 ++ b1) &&& 0xFFFC)),
        crcOk := some true, trace := s.trace ++ [.busExec b (tRead 3) 1000 .ok [b0, b1, b2]] }) := by
  have hask : askExec (tRead 3) s = .ok (.ok, [b0, b1, b2], { s with answers := more }) :=
    (askExec_decided_ok hl ha).trans (if_pos rfl)
  obtain ⟨hvalid, -⟩ := measurementReadsAndChecks i c conv s _ b b0 b1 b2 hi hp hb hask
  exact run_succ_of_exec hw hp (hvalid hv)

end Run

/-- Settles O35: acceptance, the trigger, the wait and the read, one step each. -/
theorem measurementFromRequestToValue : Obligations.MeasurementFromRequestToValue := by
  intro i c conv s q rest more b b0 b1 b2 hi hp hw hh hd hb hl ha hv
  refine Eq.trans (run_request hi hw hp hh hd) ?_
  refine Eq.trans (run_trigger hi hw rfl rfl hb hl ha) ?_
  refine Eq.trans (run_wait hi hw rfl) ?_
  -- `by exact`: `hw` is elaborated once the goal has fixed the state
  refine Eq.trans (run_read hi (by exact hw) rfl hb hl rfl hv) ?_
  simp [Host.Core.run, killDatapath, hp, tWrite, tRead, Config.devAddr]

end Sys2Proof.Machine
end

section
/-! The legacy view (R170): switched on, a measurement makes the same calls on the same answers, and where it ends the two
outputs are set from its status and value. -/

namespace Sys2Proof.Machine

/-- The state with the legacy view switched on. -/
def showView (s : State) : State := { s with cfg := { s.cfg with legacyView := true } }

/-- Where a measurement that started from `s` ends with the view off, `o`, the legacy outputs stay, and with the view on, `o'`,
it ends in the same state but for the two outputs, which show its status and value. -/
def ShowsSentinels (conv : Rounding → Raw16 → F32) (s : State) (o o' : Out) : Prop :=
  ∀ t, o = .next t → t.ph = .idle → t.legacyRaw = s.legacyRaw ∧ t.legacyEng = s.legacyEng ∧
    ∃ lr : Raw16, (t.status = some .ok → t.val = some (.u16 lr)) ∧ (t.status ≠ some .ok → lr = 0) ∧
      o' = .next { showView t with
        legacyRaw := some lr, legacyEng := some (if lr = 0 then minus999 else conv s.cfg.round lr) }

/-- A call from `s` has led to `u`, and the measurement has not ended. -/
structure Underway (s u : State) : Prop where
  ph : u.ph = s.ph
  cfg : u.cfg = s.cfg
  legacyRaw : u.legacyRaw = s.legacyRaw
  legacyEng : u.legacyEng = s.legacyEng

theorem underway_record {s u : State} (h : OnlyTransport s u) (e : Event) : Underway s (record e u) where
  ph := h.field State.ph
  cfg := h.field State.cfg
  legacyRaw := h.field State.legacyRaw
  legacyEng := h.field State.legacyEng

theorem Underway.takeFrame {s u : State} (h : Underway s u) (b0 b1 b2 : Byte) : Underway s (takeFrame b0 b1 b2 u) := { h with }

/-- The transport does not look at the view. -/
theorem askExec_showView (x : Txn) (s : State) :
    askExec x (showView s) = (askExec x s).map fun a => (a.1, a.2.1, showView a.2.2) := by
  have hlink : (showView s).link = s.link := rfl
  have hanswers : (showView s).answers = s.answers := rfl
  unfold askExec
  rw [hlink, hanswers]
  split
  · split
    · rfl
    · split
      · split <;> rfl
      · rfl
    · rfl
  · rfl

/-- With the view on, the end of a measurement sets both outputs from its status and value (R170). -/
theorem endMeasurement_showView (conv : Rounding → Raw16 → F32) (st : Status) (v : Option Raw16) (u : State) :
    endMeasurement conv st v (showView u) = .next { showView (finish st (v.map .u16) u) with
      legacyRaw := some (if st = .ok then v.getD 0 else 0),
      legacyEng := some (if (if st = .ok then v.getD 0 else 0) = 0 then minus999
        else conv u.cfg.round (if st = .ok then v.getD 0 else 0)) } := rfl

section Calls

variable {i : Instr} {k : Nat} {conv : Rounding → Raw16 → F32} {s u : State} (hoff : s.cfg.legacyView = false)

theorem advance_showsSentinels (hp : s.ph = .run i k) (hu : Underway s u) (o : Out) :
    ShowsSentinels conv s (.next (advance u)) o := fun _ h ht =>
  absurd ht (advance_next_ne_idle (hu.ph.trans hp) h)

include hoff

theorem endMeasurement_off (hu : Underway s u) (st : Status) (v : Option Raw16) :
    endMeasurement conv st v u = .next (finish st (v.map .u16) u) :=
  congrArg _ (legacyView_off conv st v (finish st (v.map .u16) u) ((congrArg _ hu.cfg).trans hoff))

/-- A measurement that ends with Ok and a value shows the value. -/
theorem value_showsSentinels (hu : Underway s u) (v : Raw16) :
    ShowsSentinels conv s (endMeasurement conv .ok (some v) u) (endMeasurement conv .ok (some v) (showView u)) := by
  intro t h _
  rw [endMeasurement_off hoff hu] at h
  cases h
  refine ⟨hu.legacyRaw, hu.legacyEng, v, fun _ => rfl, fun hst => absurd rfl hst, ?_⟩
  simp only [endMeasurement_showView, hu.cfg, if_true, Option.getD_some]

/-- A measurement that fails shows 0. -/
theorem failure_showsSentinels (hu : Underway s u) {st : Status} (hst : st ≠ .ok) :
    ShowsSentinels conv s (endMeasurement conv st none u) (endMeasurement conv st none (showView u)) := by
  intro t h _
  rw [endMeasurement_off hoff hu] at h
  cases h
  refine ⟨hu.legacyRaw, hu.legacyEng, 0, fun hok => absurd (Option.some_inj.mp hok) hst, fun _ => rfl, ?_⟩
  simp only [endMeasurement_showView, hu.cfg, if_neg hst]

/-- A transaction and its gate, where what follows a passed gate shows the sentinels. -/
theorem busExec_showsSentinels (x : Txn) {goOn : List Byte → State → Out}
    (hgo : ∀ bs u, Underway s u → ShowsSentinels conv s (goOn bs u) (goOn bs (showView u))) :
    ShowsSentinels conv s (busExec x s fun r bs u => gate r (fun st u => endMeasurement conv st none u) u (goOn bs))
      (busExec x (showView s) fun r bs u => gate r (fun st u => endMeasurement conv st none u) u (goOn bs)) := by
  intro t h ht
  obtain ⟨b, r, bs, u, hb, ha, h⟩ := busExec_next h
  have hview : askExec x (showView s) = .ok (r, bs, showView u) := by
    rw [askExec_showView, ha]
    rfl
  rw [busExec_answered (s := showView s) hb hview]
  have hu := underway_record (askExec_ok ha).1 (.busExec b x 1000 r bs)
  by_cases hr : r = .ok
  · subst hr
    rw [gate_ok] at h ⊢
    exact hgo bs _ hu t h ht
  · rw [gate_failed hr] at h ⊢
    exact failure_showsSentinels hoff hu (statusOf_eq_ok.not.mpr hr) t h ht

theorem readFrameCall_showsSentinels (hp : s.ph = .run i 2) :
    ShowsSentinels conv s (rdvalCall conv 2 s) (rdvalCall conv 2 (showView s)) := by
  unfold rdvalCall
  refine busExec_showsSentinels hoff (tRead 3) fun bs u hu t h => ?_
  match bs, h with
  | [b0, b1, b2], h =>
    have hu' := hu.takeFrame b0 b1 b2
    dsimp only at h ⊢
    cases hv : isCrcValid (assembleRaw b0 b1) b2 with
    | true =>
      simp only [hv, if_true] at h ⊢
      exact value_showsSentinels hoff hu' _ t h
    | false =>
      simp only [hv, Bool.false_eq_true, if_false] at h ⊢
      exact advance_showsSentinels hp hu' _ t h

theorem diagnosticCall_showsSentinels :
    ShowsSentinels conv s (rdvalCall conv 3 s) (rdvalCall conv 3 (showView s)) := by
  intro t h
  obtain ⟨raw, hraw, h⟩ := readReg_next h
  obtain ⟨cks, hcks, h⟩ := readReg_next h
  have hu : Underway s (record (.diag .crcMismatch raw cks) s) := ⟨rfl, rfl, rfl, rfl⟩
  rw [rdvalCall, readReg_eq (r := (showView s).raw) hraw, readReg_eq (r := (showView s).cks) hcks]
  have hpol : (record (.diag .crcMismatch raw cks) (showView s)).cfg.crcPolicy = s.cfg.crcPolicy := rfl
  dsimp only at h ⊢
  rw [hpol]
  cases hs : s.cfg.crcPolicy <;> simp only [record_cfg, hs] at h ⊢
  · exact failure_showsSentinels hoff hu (by decide) t h
  · exact value_showsSentinels hoff hu _ t h

theorem rdvalCall_showsSentinels (hp : s.ph = .run i k) :
    ShowsSentinels conv s (rdvalCall conv k s) (rdvalCall conv k (showView s)) := by
  match k with
  | 0 =>
    intro t h
    obtain ⟨c, hcmd, h⟩ := readReg_next h
    rw [rdvalCall, readReg_eq (r := (showView s).cmd) hcmd]
    exact busExec_showsSentinels hoff (tCmd c) (fun _ _ hu => advance_showsSentinels hp hu _) t h
  | 1 => exact advance_showsSentinels hp (u := delay 50 s) ⟨rfl, rfl, rfl, rfl⟩ _
  | 2 => exact readFrameCall_showsSentinels hoff hp
  | 3 => exact diagnosticCall_showsSentinels hoff
  | k + 4 => exact fun _ h => nomatch h

end Calls

/-- Settles O36: a measurement ends in a call of its list, which makes the same call with the view on. -/
theorem legacyViewShowsSentinels : Obligations.LegacyViewShowsSentinels := by
  intro i c conv s t hi h ht
  rw [exec_eq_sequenced (isBusOp_measurement hi)] at h
  rcases sequenced_next h with ⟨-, rfl⟩ | ⟨k, hp, hk⟩
  · cases ht
  · rw [callOf_measurement hi] at hk
    rw [exec_measurement (s := { s with cfg := { s.cfg with legacyView := true } }) hi hp]
    exact rdvalCall_showsSentinels (s := { s with cfg := { s.cfg with legacyView := false } }) rfl hp t hk ht

end Sys2Proof.Machine
end

section
/-! The calls on the user register, each on the answer of the transport (R181, R184), and the two register accesses RDUR and
WRUR (R180 to R185). -/

namespace Sys2Proof.Machine

/-- The status of the result `Ok` is Ok (R232), so an operation without a value ends the same way on both sides of its gate. -/
theorem ite_finish_statusOf (r : BusResult) (u : State) :
    (if r = .ok then finish .ok none u else finish (statusOf r) none u) = finish (statusOf r) none u := by
  split
  next hr => rw [statusOf_eq_ok.mpr hr]
  next => rfl

section UserRegister

variable {s s' : State} {b : BusId} {r : BusResult} {bs : List Byte} (hb : s.bh = some b)
include hb

/-- A transaction whose gate ends the operation with `raise` (R232), on the answer of the transport. -/
theorem busExec_raise_answered {x : Txn} (ha : askExec x s = .ok (r, bs, s')) (goOn : List Byte → State → Out) :
    busExec x s (fun r bs u => gate r raise u (goOn bs)) =
      if r = .ok then goOn bs (record (.busExec b x 1000 r bs) s')
      else .next (finish (statusOf r) none (record (.busExec b x 1000 r bs) s')) :=
  busExec_answered hb ha _

theorem selectUregCall_answered {i : Instr} {k : Nat} (hp : s.ph = .run i k)
    (ha : askExec (tWrite [0xE7]) s = .ok (r, bs, s')) :
    selectUregCall s =
      .next (if r = .ok then { record (.busExec b (tWrite [0xE7]) 1000 r bs) s' with ph := .run i (k + 1) }
        else finish (statusOf r) none (record (.busExec b (tWrite [0xE7]) 1000 r bs) s')) := by
  have hpu : (record (.busExec b (tWrite [0xE7]) 1000 r bs) s').ph = .run i k :=
    ((askExec_ok ha).1.field State.ph).trans hp
  rw [← advance_eq hpu, apply_ite Host.Outcome.next]
  exact busExec_raise_answered hb ha fun _ u => .next (advance u)

theorem readUregCall_answered_ok {v : Byte} (ha : askExec (tRead 1) s = .ok (.ok, [v], s')) (use : Byte → State → Out) :
    readUregCall use s = use v { record (.busExec b (tRead 1) 1000 .ok [v]) s' with regv := some v } :=
  (busExec_raise_answered hb ha _).trans (if_pos rfl)

theorem readUregCall_answered_failure (hr : r ≠ .ok) (ha : askExec (tRead 1) s = .ok (r, bs, s'))
    (use : Byte → State → Out) :
    readUregCall use s = .next (finish (statusOf r) none (record (.busExec b (tRead 1) 1000 r bs) s')) :=
  (busExec_raise_answered hb ha _).trans (if_neg hr)

/-- The write ends the operation with the status of its result, Ok included (R184, R232). -/
theorem writeUregCall_answered {v : Byte} (ha : askExec (tWrite [0xE6, v]) s = .ok (r, bs, s')) :
    writeUregCall v s = .next (finish (statusOf r) none (record (.busExec b (tWrite [0xE6, v]) 1000 r bs) s')) := by
  rw [← ite_finish_statusOf, apply_ite Host.Outcome.next]
  exact busExec_raise_answered hb ha fun _ u => returnOk none u

end UserRegister

/-- Settles O37: the calls are the select, whose gate moves the phase, and the read, whose byte is the value. -/
theorem rdurReadsOneByte : Obligations.RdurReadsOneByte := by
  intro s s' b r bs hb
  refine ⟨fun hp ha => ?_, fun hp ha => ⟨?_, fun hr => ?_⟩⟩
  · exact (exec_running rfl hp).trans (selectUregCall_answered hb hp ha)
  · rintro v rfl rfl
    -- the end of the operation clears REGV, which held the byte (R241)
    exact (exec_running rfl hp).trans (readUregCall_answered_ok hb ha _)
  · exact (exec_running rfl hp).trans (readUregCall_answered_failure hb hr ha _)

/-- Settles O38: the one call is the write, which ends the operation with the status of its result. -/
theorem wrurWritesWholeByte : Obligations.WrurWritesWholeByte := by
  intro s s' v b r bs hb hp ha u
  have hcall : exec (.wrur v) s = .next (finish (statusOf r) none u) :=
    (exec_running rfl hp).trans (writeUregCall_answered hb ha)
  rw [hcall, ite_finish_statusOf]

end Sys2Proof.Machine
end

section
/-! The resolution of the sensor: GETRES and SETRES call by call, and the run of SETRES from its request (R195 to R201). -/

namespace Sys2Proof.Machine

/-- Settles O39: the calls are those of RDUR, and the byte read is masked before it is returned. -/
theorem getresReturnsResolutionBits : Obligations.GetresReturnsResolutionBits := by
  intro s s' b r bs hb
  refine ⟨fun hp ha => ?_, fun hp ha => ⟨?_, fun hr => ?_⟩⟩
  · exact (exec_running rfl hp).trans (selectUregCall_answered hb hp ha)
  · rintro v rfl rfl
    -- the end of the operation clears REGV, which held the byte (R241)
    exact (exec_running rfl hp).trans (readUregCall_answered_ok hb ha _)
  · exact (exec_running rfl hp).trans (readUregCall_answered_failure hb hr ha _)

section Setres

variable {s s' : State} {x : Byte} {b : BusId} (hb : s.bh = some b)
include hb

/-- The read of SETRES on its answer: the byte is kept, and the merge of the operand into it is made at once (R198). -/
theorem exec_setres_read {v : Byte} (hp : s.ph = .run (.setres x) 1) (hx : s.resv = some x)
    (ha : askExec (tRead 1) s = .ok (.ok, [v], s')) :
    exec (.setres x) s = .next { record (.busExec b (tRead 1) 1000 .ok [v]) s' with
      ph := .run (.setres x) 2, regv := some v, merge := some ((v &&& 0x7E) ||| (x &&& 0x81)) } := by
  have htransport := (askExec_ok ha).1
  have hph : s'.ph = .run (.setres x) 1 := (htransport.field State.ph).trans hp
  have hresv : s'.resv = some x := (htransport.field State.resv).trans hx
  have hcall : exec (.setres x) s = .next (advance { record (.busExec b (tRead 1) 1000 .ok [v]) s' with
      regv := some v, merge := some (mergeRes v x) }) := by
    rw [exec_running rfl hp, callOf, setresCall, readUregCall_answered_ok hb ha]
    exact readReg_eq hresv _
  rw [hcall, advance_eq (by exact hph), mergeRes_eq]

/-- The write of SETRES is of the merge it holds, and it ends the operation with the status of its result (R198, R200). -/
theorem exec_setres_write {m : Byte} {r : BusResult} {bs : List Byte} (hp : s.ph = .run (.setres x) 2)
    (hm : s.merge = some m) (ha : askExec (tWrite [0xE6, m]) s = .ok (r, bs, s')) :
    exec (.setres x) s =
      .next (finish (statusOf r) none (record (.busExec b (tWrite [0xE6, m]) 1000 r bs) s')) := by
  calc exec (.setres x) s
      = readReg s.merge (fun m => writeUregCall m s) := exec_running rfl hp
    _ = writeUregCall m s := readReg_eq hm _
    _ = _ := writeUregCall_answered hb ha

end Setres

/-- Settles O41: the read makes the merge, and the write is of the merge held. -/
theorem setresCallsEachComplete : Obligations.SetresCallsEachComplete := by
  intro s s' x b bs hb
  refine ⟨?_, fun m hp hm ha => exec_setres_write hb hp hm ha⟩
  rintro v hp hx rfl ha
  exact exec_setres_read hb hp hx ha

/-- A decided answer to a transaction that reads nothing is its result alone (R58). -/
theorem askExec_decided_write {x : Txn} {s : State} {r : BusResult} {more : List Answer} (hl : s.link = .oracle)
    (ha : s.answers = .exec r [] :: more) (hx : rbyteCount x = 0) :
    askExec x s = .ok (r, [], { s with answers := more }) := by
  by_cases hr : r = .ok
  · subst hr
    exact (askExec_decided_ok hl ha).trans (if_pos hx.symm)
  · exact askExec_decided_failure hl ha hr

/-- A step at IDLE with no foreign frame on the bus accepts the host's next request (R32 a). -/
theorem run_succ_of_request {i : Instr} {n : Nat} {s : State} {q : HostRequest} {rest : List HostRequest}
    (hi : isBusOp i = true) (hw : s.wire = []) (hp : s.ph = .idle) (hh : s.host = q :: rest)
    (hd : decode (.host q) = .ok i) : (Host.Core.run Sys2Proof.core (n + 1) s : Out) =
      Host.Core.run Sys2Proof.core n { accepted i { s with host := rest } with ph := .run i 0 } := by
  have hstep : step s = exec i { s with host := rest } :=
    step_fetched ((fetch_request hw hp hh).trans (fetchFrame_decoded hd _))
  exact run_succ_of_step (hstep.trans (requestAcceptedAtIdle i { s with host := rest } hi hp))

/-! The run of SETRES on decided answers, with no foreign frame on the bus. -/

section Run

variable {s : State} {x : Byte} {b : BusId} {more : List Answer} {n : Nat} (hw : s.wire = []) (hb : s.bh = some b)
  (hl : s.link = .oracle)
include hw hb hl

theorem run_setres_select (hp : s.ph = .run (.setres x) 0) (ha : s.answers = .exec .ok [] :: more) :
    (Host.Core.run Sys2Proof.core (n + 1) s : Out) =
      Host.Core.run Sys2Proof.core n { s with
        ph := .run (.setres x) 1, answers := more, trace := s.trace ++ [.busExec b (tWrite [0xE7]) 1000 .ok []] } := by
  have hask := askExec_decided_write (x := tWrite [0xE7]) hl ha rfl
  exact run_succ_of_exec hw hp ((exec_running rfl hp).trans (selectUregCall_answered hb hp hask))

theorem run_setres_read {v : Byte} (hp : s.ph = .run (.setres x) 1) (hx : s.resv = some x)
    (ha : s.answers = .exec .ok [v] :: more) :
    (Host.Core.run Sys2Proof.core (n + 1) s : Out) =
      Host.Core.run Sys2Proof.core n { s with
        ph := .run (.setres x) 2, regv := some v, merge := some ((v &&& 0x7E) ||| (x &&& 0x81)), answers := more,
        trace := s.trace ++ [.busExec b (tRead 1) 1000 .ok [v]] } := by
  have hask : askExec (tRead 1) s = .ok (.ok, [v], { s with answers := more }) :=
    (askExec_decided_ok hl ha).trans (if_pos rfl)
  exact run_succ_of_exec hw hp (exec_setres_read hb hp hx hask)

theorem run_setres_write {m : Byte} {r : BusResult} (hp : s.ph = .run (.setres x) 2) (hm : s.merge = some m)
    (ha : s.answers = .exec r [] :: more) :
    (Host.Core.run Sys2Proof.core (n + 1) s : Out) =
      Host.Core.run Sys2Proof.core n (finish (statusOf r) none { s with
        answers := more, trace := s.trace ++ [.busExec b (tWrite [0xE6, m]) 1000 r []] }) := by
  have hask := askExec_decided_write (x := tWrite [0xE6, m]) hl ha rfl
  exact run_succ_of_exec hw hp (exec_setres_write hb hp hm hask)

end Run

/-- Settles O40: acceptance, the select, the read with its merge, and the write, one step each. -/
theorem setresFromRequestToMergedWrite : Obligations.SetresFromRequestToMergedWrite := by
  intro s q rest more b v x r hp hw hh hd hb hl ha
  refine Eq.trans (run_succ_of_request rfl hw hp hh hd) ?_
  refine Eq.trans (run_setres_select hw hb hl rfl ha) ?_
  -- `by exact`: a hypothesis about `s` is elaborated once the goal has fixed the state
  refine Eq.trans (run_setres_read (by exact hw) (by exact hb) (by exact hl) rfl rfl rfl) ?_
  refine Eq.trans (run_setres_write (by exact hw) (by exact hb) (by exact hl) rfl rfl rfl) ?_
  simp [Host.Core.run, accepted, finish, killDatapath, hp, tWrite, tRead, Config.devAddr]

end Sys2Proof.Machine
end

section
/-! The lifecycle: the gates of INIT (R212 to R214), the reset command and its settle delay, which SRST and INIT share (R215,
R218 to R220), and the run of INIT from its request (R210, R211). -/

namespace Sys2Proof.Machine

section Gates

variable {s s' : State} {i : Instr} {k : Nat} {b : BusId} {r : BusResult} {bs : List Byte}

/-- A call's gate goes on to the next call or ends the operation (R32 b, R240). -/
theorem advance_or_raise_eq {u : State} (hp : u.ph = .run i k) (c : Prop) [Decidable c] (st : Status) :
    (if c then .next (advance u) else raise st u : Out) =
      .next (if c then { u with ph := .run i (k + 1) } else finish st none u) := by
  rw [← advance_eq hp, apply_ite Host.Outcome.next]
  rfl

theorem busConfig_answered {ok : Bool} {dp cp : Pin} {dpu cpu : Bool} (ha : askAck (fun d => (true, d)) s = .ok (ok, s'))
    (f : Bool → State → Out) :
    busConfig b dp cp dpu cpu s f = f ok (record (.busConfig b dp cp dpu cpu true 100000 ok) s') := by
  rw [busConfig, ha]
  rfl

theorem busInstall_answered {ok : Bool} (ha : askAck devInstall s = .ok (ok, s')) (f : Bool → State → Out) :
    busInstall b s f = f ok (record (.busInstall b ok) s') := by
  rw [busInstall, ha]

/-- The reset command and its gate, whichever operation sends it. -/
theorem resetCall_answered (hp : s.ph = .run i k) (hb : s.bh = some b)
    (ha : askExec (tWrite [0xFE]) s = .ok (r, bs, s')) :
    resetCall s =
      .next (if r = .ok then { record (.busExec b (tWrite [0xFE]) 1000 r bs) s' with ph := .run i (k + 1) }
        else finish (statusOf r) none (record (.busExec b (tWrite [0xFE]) 1000 r bs) s')) := by
  have hpu : (record (.busExec b (tWrite [0xFE]) 1000 r bs) s').ph = .run i k :=
    ((askExec_ok ha).1.field State.ph).trans hp
  exact (busExec_answered hb ha _).trans (advance_or_raise_eq hpu (r = .ok) (statusOf r))

theorem settleCall_eq (s : State) :
    settleCall s = .next (finish .ok none { s with trace := s.trace ++ [.delay 15], dev := devDelay 15 s.dev }) := rfl

end Gates

/-- Settles O45: in both operations the two calls are the reset command and the settle delay. -/
theorem resetSettlesOnlyAfterSuccess : Obligations.ResetSettlesOnlyAfterSuccess := by
  intro i k s s' b r bs hi
  have hreset : s.ph = .run i k → exec i s = resetCall s := by
    rcases hi with ⟨rfl, rfl⟩ | ⟨b', dp, cp, dpu, cpu, rfl, rfl⟩ <;> exact exec_running rfl
  have hsettle : s.ph = .run i (k + 1) → exec i s = settleCall s := by
    rcases hi with ⟨rfl, rfl⟩ | ⟨b', dp, cp, dpu, cpu, rfl, rfl⟩ <;> exact exec_running rfl
  exact ⟨fun hp hb ha => (hreset hp).trans (resetCall_answered hp hb ha), fun hp => (hsettle hp).trans (settleCall_eq s)⟩

section Init

variable {s s' : State} {b : BusId} {dp cp : Pin} {dpu cpu : Bool}

theorem exec_init_config {ok : Bool} (hp : s.ph = .run (.init b dp cp dpu cpu) 0)
    (ha : askAck (fun d => (true, d)) s = .ok (ok, s')) :
    let u := record (.busConfig b dp cp dpu cpu true 100000 ok) s'
    exec (.init b dp cp dpu cpu) s =
      .next (if ok then { u with ph := .run (.init b dp cp dpu cpu) 1 } else finish .configurationError none u) := by
  intro u
  have hpu : u.ph = .run (.init b dp cp dpu cpu) 0 := ((askAck_ok ha).field State.ph).trans hp
  rw [exec_running rfl hp, callOf, initCall, busConfig_answered ha]
  exact advance_or_raise_eq hpu (ok = true) .configurationError

theorem exec_init_install {ok : Bool} (hp : s.ph = .run (.init b dp cp dpu cpu) 1)
    (ha : askAck devInstall s = .ok (ok, s')) :
    let u := record (.busInstall b ok) s'
    exec (.init b dp cp dpu cpu) s =
      .next (if ok then { u with ph := .run (.init b dp cp dpu cpu) 2 } else finish .installError none u) := by
  intro u
  have hpu : u.ph = .run (.init b dp cp dpu cpu) 1 := ((askAck_ok ha).field State.ph).trans hp
  rw [exec_running rfl hp, callOf, initCall, busInstall_answered ha]
  exact advance_or_raise_eq hpu (ok = true) .installError

/-- The status of a failed probe does not depend on the result (R214). -/
theorem exec_init_probe {b' : BusId} {r : BusResult} {bs : List Byte} (hp : s.ph = .run (.init b dp cp dpu cpu) 2)
    (hb : s.bh = some b') (ha : askExec tProbe s = .ok (r, bs, s')) :
    let u := record (.busExec b' tProbe 1000 r bs) s'
    exec (.init b dp cp dpu cpu) s =
      .next (if r = .ok then { u with ph := .run (.init b dp cp dpu cpu) 3 } else finish .notFoundError none u) := by
  intro u
  have hpu : u.ph = .run (.init b dp cp dpu cpu) 2 := ((askExec_ok ha).1.field State.ph).trans hp
  rw [exec_running rfl hp, callOf, initCall, busExec_answered hb ha]
  exact advance_or_raise_eq hpu (r = .ok) .notFoundError

end Init

/-- Settles O44: each call of INIT, on the transport's answer, is its gate. -/
theorem initGatesMapToTheirStatus : Obligations.InitGatesMapToTheirStatus := by
  intro s s' b b' dp cp dpu cpu ok r bs i
  exact ⟨exec_init_config, exec_init_install, exec_init_probe⟩

/-! The run of INIT on decided answers, with no foreign frame on the bus. -/

section Run

variable {s : State} {b b' : BusId} {dp cp : Pin} {dpu cpu : Bool} {more : List Answer} {n : Nat} (hw : s.wire = [])
include hw

theorem run_init_config (hp : s.ph = .run (.init b dp cp dpu cpu) 0) (hl : s.link = .oracle)
    (ha : s.answers = .ack true :: more) : (Host.Core.run Sys2Proof.core (n + 1) s : Out) =
      Host.Core.run Sys2Proof.core n { s with
        ph := .run (.init b dp cp dpu cpu) 1, answers := more,
        trace := s.trace ++ [.busConfig b dp cp dpu cpu true 100000 true] } :=
  run_succ_of_exec hw hp (exec_init_config hp (askAck_decided hl ha))

theorem run_init_install (hp : s.ph = .run (.init b dp cp dpu cpu) 1) (hl : s.link = .oracle)
    (ha : s.answers = .ack true :: more) : (Host.Core.run Sys2Proof.core (n + 1) s : Out) =
      Host.Core.run Sys2Proof.core n { s with
        ph := .run (.init b dp cp dpu cpu) 2, answers := more, trace := s.trace ++ [.busInstall b true] } :=
  run_succ_of_exec hw hp (exec_init_install hp (askAck_decided hl ha))

theorem run_init_probe (hp : s.ph = .run (.init b dp cp dpu cpu) 2) (hb : s.bh = some b') (hl : s.link = .oracle)
    (ha : s.answers = .exec .ok [] :: more) : (Host.Core.run Sys2Proof.core (n + 1) s : Out) =
      Host.Core.run Sys2Proof.core n { s with
        ph := .run (.init b dp cp dpu cpu) 3, answers := more,
        trace := s.trace ++ [.busExec b' tProbe 1000 .ok []] } :=
  run_succ_of_exec hw hp (exec_init_probe hp hb (askExec_decided_write hl ha rfl))

theorem run_init_reset (hp : s.ph = .run (.init b dp cp dpu cpu) 3) (hb : s.bh = some b') (hl : s.link = .oracle)
    (ha : s.answers = .exec .ok [] :: more) : (Host.Core.run Sys2Proof.core (n + 1) s : Out) =
      Host.Core.run Sys2Proof.core n { s with
        ph := .run (.init b dp cp dpu cpu) 4, answers := more,
        trace := s.trace ++ [.busExec b' (tWrite [0xFE]) 1000 .ok []] } :=
  have hask := askExec_decided_write (x := tWrite [0xFE]) hl ha rfl
  run_succ_of_exec hw hp ((exec_running rfl hp).trans (resetCall_answered hp hb hask))

theorem run_init_settle (hp : s.ph = .run (.init b dp cp dpu cpu) 4) :
    (Host.Core.run Sys2Proof.core (n + 1) s : Out) =
      Host.Core.run Sys2Proof.core n (finish .ok none { s with
        trace := s.trace ++ [.delay 15], dev := devDelay 15 s.dev }) :=
  run_succ_of_exec hw hp ((exec_running rfl hp).trans (settleCall_eq s))

end Run

/-- Settles O43: acceptance, which writes the handle, and the five calls, one step each. -/
theorem initFromRequestToReady : Obligations.InitFromRequestToReady := by
  intro s q rest more b dp cp dpu cpu hp hw hh hd hl ha
  refine Eq.trans (run_succ_of_request rfl hw hp hh hd) ?_
  refine Eq.trans (run_init_config hw rfl hl ha) ?_
  -- `by exact`: a hypothesis about `s` is elaborated once the goal has fixed the state
  refine Eq.trans (run_init_install (by exact hw) rfl (by exact hl) rfl) ?_
  refine Eq.trans (run_init_probe (by exact hw) rfl rfl (by exact hl) rfl) ?_
  refine Eq.trans (run_init_reset (by exact hw) rfl rfl (by exact hl) rfl) ?_
  refine Eq.trans (run_init_settle (by exact hw) rfl) ?_
  simp [Host.Core.run, accepted, finish, killDatapath, hp, tProbe, tWrite, Config.devAddr]

end Sys2Proof.Machine
end

section
/-! The end of an operation and what can end it (R20, R232, R240, R254): the response written, a request refused while another
operation runs, and a failed transaction. -/

namespace Sys2Proof.Machine

/-- Settles O29: `raise` and `returnOk` are both `finish`. -/
theorem endOfOperationWritesResponse : Obligations.EndOfOperationWritesResponse := fun _ _ _ => ⟨rfl, rfl⟩

/-! ### A request while another operation runs -/

section Busy

variable {i j : Instr} {k : Nat} {s : State} (hp : s.ph = .run j k)
include hp

theorem whenIdle_busy (body : State → Out) : whenIdle body s = .refused .busy := by
  simp [whenIdle, hp]

theorem sequenced_busy (hij : i ≠ j) (start : State → State) (call : Nat → State → Out) :
    sequenced i start call s = .refused .busy := by
  simp [sequenced, hp, hij.symm]

end Busy

/-- Settles O18: a pure operation runs at `IDLE` alone, and one with external calls makes its own calls alone. -/
theorem requestWhileBusyRefused : Obligations.RequestWhileBusyRefused := by
  intro i j k s hi hp hij
  rcases isPure_or_isBusOp hi with hi | hi
  · obtain ⟨body, he, -⟩ := exec_eq_whenIdle hi
    exact (he s).trans (whenIdle_busy hp body)
  · exact (exec_eq_sequenced hi s).trans (sequenced_busy hp hij _ _)

/-! ### A failed transaction -/

/-- From `u` the operation ends with this status and no value, the datapath dead, and no further call made (R235, R240). -/
def EndsFailed (st : Status) (u : State) (o : Out) : Prop :=
  ∃ t, o = .next t ∧ t.ph = .idle ∧ t.status = some st ∧ t.val = none ∧ DatapathDead t ∧ t.trace = u.trace ∧
    t.crcOk = u.crcOk ∧ t.bh = u.bh

theorem raise_endsFailed (st : Status) (u : State) : EndsFailed st u (raise st u) :=
  ⟨_, rfl, rfl, rfl, rfl, finish_dead st none u, rfl, rfl, rfl⟩

theorem endMeasurement_endsFailed (conv : Rounding → Raw16 → F32) (st : Status) (u : State) :
    EndsFailed st u (endMeasurement conv st none u) := by
  simp [EndsFailed, endMeasurement, DatapathDead]

theorem isBusOp_of_callTxn {i : Instr} {k : Nat} {s : State} {x : Txn} (hx : callTxn i k s = some x) : isBusOp i = true := by
  cases i with
  | rdt | rdh | rdur | wrur | getres | setres | init | srst => rfl
  | _ => cases hx

section FailedGate

variable {i : Instr} {k : Nat} {s s' : State} {b : BusId} {r : BusResult} {bs : List Byte} (hb : s.bh = some b) (hr : r ≠ .ok)
include hb hr

/-- A transaction whose gate fails is what its operation does on a failure (R232). -/
theorem busExec_gate_endsFailed {x : Txn} (ha : askExec x s = .ok (r, bs, s')) {onFail : Status → State → Out}
    (hf : ∀ st u, EndsFailed st u (onFail st u)) (goOn : List Byte → State → Out) :
    EndsFailed (statusOf r) (record (.busExec b x 1000 r bs) s')
      (busExec x s fun r bs u => gate r onFail u (goOn bs)) := by
  rw [busExec_answered hb ha, gate_failed hr]
  exact hf _ _

theorem selectUregCall_endsFailed (ha : askExec (tWrite [0xE7]) s = .ok (r, bs, s')) :
    EndsFailed (statusOf r) (record (.busExec b (tWrite [0xE7]) 1000 r bs) s') (selectUregCall s) :=
  busExec_gate_endsFailed hb hr ha raise_endsFailed _

theorem readUregCall_endsFailed (ha : askExec (tRead 1) s = .ok (r, bs, s')) (use : Byte → State → Out) :
    EndsFailed (statusOf r) (record (.busExec b (tRead 1) 1000 r bs) s') (readUregCall use s) :=
  busExec_gate_endsFailed hb hr ha raise_endsFailed _

theorem writeUregCall_endsFailed {v : Byte} (ha : askExec (tWrite [0xE6, v]) s = .ok (r, bs, s')) :
    EndsFailed (statusOf r) (record (.busExec b (tWrite [0xE6, v]) 1000 r bs) s') (writeUregCall v s) :=
  busExec_gate_endsFailed hb hr ha raise_endsFailed _

theorem resetCall_endsFailed (ha : askExec (tWrite [0xFE]) s = .ok (r, bs, s')) :
    EndsFailed (statusOf r) (record (.busExec b (tWrite [0xFE]) 1000 r bs) s') (resetCall s) :=
  busExec_gate_endsFailed hb hr ha raise_endsFailed _

theorem triggerCall_endsFailed {c : Byte} (hcmd : s.cmd = some c) (ha : askExec (tCmd c) s = .ok (r, bs, s'))
    (conv : Rounding → Raw16 → F32) :
    EndsFailed (statusOf r) (record (.busExec b (tCmd c) 1000 r bs) s') (rdvalCall conv 0 s) := by
  rw [rdvalCall, readReg_eq hcmd]
  exact busExec_gate_endsFailed hb hr ha (endMeasurement_endsFailed conv) _

theorem readFrameCall_endsFailed (ha : askExec (tRead 3) s = .ok (r, bs, s')) (conv : Rounding → Raw16 → F32) :
    EndsFailed (statusOf r) (record (.busExec b (tRead 3) 1000 r bs) s') (rdvalCall conv 2 s) := by
  unfold rdvalCall
  exact busExec_gate_endsFailed hb hr ha (endMeasurement_endsFailed conv) _

/-- Each row of the call lists with a transaction, but for the probe of INIT, has a gate that ends the operation. -/
theorem callOf_endsFailed {x : Txn} (hlive : RegistersLive s) (hp : s.ph = .run i k) (hx : callTxn i k s = some x)
    (hprobe : ∀ b' dp cp dpu cpu, ¬ (i = .init b' dp cp dpu cpu ∧ k = 2)) (ha : askExec x s = .ok (r, bs, s')) :
    EndsFailed (statusOf r) (record (.busExec b x 1000 r bs) s') (callOf i k s) := by
  unfold callTxn at hx
  split at hx
  -- the measurements
  case h_1 | h_3 =>
    cases hx
    simp only [RegistersLive, hp] at hlive
    obtain ⟨hcmd, -⟩ := hlive
    exact triggerCall_endsFailed hb hr hcmd ha _
  case h_2 | h_4 => cases hx; exact readFrameCall_endsFailed hb hr ha _
  -- the user register
  case h_5 | h_8 | h_10 => cases hx; exact selectUregCall_endsFailed hb hr ha
  case h_6 | h_9 => cases hx; exact readUregCall_endsFailed hb hr ha _
  case h_11 => cases hx; unfold callOf setresCall; exact readUregCall_endsFailed hb hr ha _
  case h_7 => cases hx; exact writeUregCall_endsFailed hb hr ha
  case h_12 =>
    obtain ⟨m, hm, rfl⟩ := Option.map_eq_some_iff.mp hx
    rw [callOf, setresCall, readReg_eq hm]
    exact writeUregCall_endsFailed hb hr ha
  -- the lifecycle
  case h_13 => exact absurd ⟨rfl, rfl⟩ (hprobe _ _ _ _ _)
  case h_14 | h_15 => cases hx; exact resetCall_endsFailed hb hr ha
  case h_16 => cases hx

end FailedGate

/-- Settles O22: the running operation's call ends it, and only the transport's own fields changed before. -/
theorem failedGateEndsOperation : Obligations.FailedGateEndsOperation := by
  intro i k s s' x b r bs hlive hp hx hprobe hb ha hr
  obtain ⟨t, he, hidle, hst, hval, hdead, htrace, hcrc, hbh⟩ := callOf_endsFailed hb hr hlive hp hx hprobe ha
  have ht := (askExec_ok ha).1
  refine ⟨t, (exec_running (isBusOp_of_callTxn hx) hp).trans he, hidle, hst, hval, hdead, ?_, ?_, ?_⟩
  · rw [htrace, record_trace, ht.trace_eq]
  · exact hcrc.trans (ht.field State.crcOk)
  · exact hbh.trans (ht.field State.bh)

end Sys2Proof.Machine
end

section
/-! What a call of a running operation does, said once as the shape of its call list's rows (R161, R181, R184, R196, R198, R211,
R218), and two things that follow from the shape alone: no row looks at what the host has pending (R254), and none ends its
operation with a status outside the operation's row of the status table (R233). -/

namespace Sys2Proof.Machine

/-- The state with another list of pending host requests. -/
def withPending (q : List HostRequest) (s : State) : State := { s with host := q }

/-! ### The shape of a call -/

/-- A write of registers, of the trace or at the device, which keeps `PH` and the configuration and does not look at the
pending requests. -/
structure LocalWrite (w : State → State) : Prop where
  ph : ∀ s, (w s).ph = s.ph
  cfg : ∀ s, (w s).cfg = s.cfg
  pending : ∀ q s, w (withPending q s) = withPending q (w s)

/-- What a call of operation `i` is made of under checksum policy `p`: it asks the transport, reads and writes registers, and
then moves `PH` on, or ends the operation with a status of its row, or stops. -/
inductive CallShape (p : CrcPolicy) (i : Instr) : (State → Out) → Prop
  | fault (r : Fault) : CallShape p i fun _ => .fault r
  | refused (r : Refusal) : CallShape p i fun _ => .refused r
  | advance : CallShape p i fun s => .next (advance s)
  | finish {st : Status} (v : Option Value) (h : mayEndWith p i st = true) : CallShape p i fun s => .next (finish st v s)
  | endMeasurement (conv : Rounding → Raw16 → F32) {st : Status} (v : Option Raw16) (h : mayEndWith p i st = true) :
    CallShape p i (endMeasurement conv st v)
  | write {w : State → State} {f : State → Out} (hw : LocalWrite w) (hf : CallShape p i f) : CallShape p i fun s => f (w s)
  | policy {f : CrcPolicy → State → Out} (hf : CallShape p i (f p)) : CallShape p i fun s => f s.cfg.crcPolicy s
  | readReg {α : Type} {reg : State → Option α} {f : α → State → Out} (hreg : ∀ q s, reg (withPending q s) = reg s)
    (hf : ∀ v, CallShape p i (f v)) : CallShape p i fun s => readReg (reg s) fun v => f v s
  | busExec (x : Txn) {f : BusResult → List Byte → State → Out} (hf : ∀ r bs, CallShape p i (f r bs)) :
    CallShape p i fun s => busExec x s f
  | busConfig (b : BusId) (dp cp : Pin) (dpu cpu : Bool) {f : Bool → State → Out} (hf : ∀ ok, CallShape p i (f ok)) :
    CallShape p i fun s => busConfig b dp cp dpu cpu s f
  | busInstall (b : BusId) {f : Bool → State → Out} (hf : ∀ ok, CallShape p i (f ok)) :
    CallShape p i fun s => busInstall b s f

theorem localWrite_record (e : Event) : LocalWrite (record e) := ⟨fun _ => rfl, fun _ => rfl, fun _ _ => rfl⟩

theorem localWrite_delay (ms : Nat) : LocalWrite (delay ms) := ⟨fun _ => rfl, fun _ => rfl, fun _ _ => rfl⟩

theorem localWrite_takeFrame (b0 b1 b2 : Byte) : LocalWrite (takeFrame b0 b1 b2) :=
  ⟨fun _ => rfl, fun _ => rfl, fun _ _ => rfl⟩

theorem localWrite_regv (b : Byte) : LocalWrite fun s => { s with regv := some b } :=
  ⟨fun _ => rfl, fun _ => rfl, fun _ _ => rfl⟩

theorem localWrite_merge (m : Byte) : LocalWrite fun s => { s with merge := some m } :=
  ⟨fun _ => rfl, fun _ => rfl, fun _ _ => rfl⟩

/-! ### The rows of the status table (R233) -/

theorem mayEndWith_ok (p : CrcPolicy) (i : Instr) : mayEndWith p i .ok = true := by
  cases i <;> rfl

/-- Every operation with external calls may end with the status of any result of a transaction. -/
theorem mayEndWith_statusOf {i : Instr} (hi : isBusOp i = true) (p : CrcPolicy) (r : BusResult) :
    mayEndWith p i (statusOf r) = true := by
  cases i with
  | rdt | rdh | rdur | wrur | getres | setres | init | srst => cases r <;> rfl
  | _ => cases hi

/-! ### The call lists have the shape -/

section Shapes

variable {p : CrcPolicy} {i : Instr}

theorem callShape_gate (r : BusResult) {onFail : Status → State → Out} {goOn : State → Out}
    (hf : CallShape p i (onFail (statusOf r))) (hg : CallShape p i goOn) : CallShape p i fun s => gate r onFail s goOn := by
  by_cases hr : r = .ok
  · simpa only [gate, hr, if_true] using hg
  · simpa only [gate, hr, if_false] using hf

/-- The gate of INIT's own calls (R212 to R214). -/
theorem callShape_passOrRaise (c : Prop) [Decidable c] {st : Status} (h : mayEndWith p i st = true) :
    CallShape p i fun s => if c then .next (advance s) else raise st s := by
  by_cases hc : c
  · simpa only [hc, if_true] using .advance
  · simpa only [hc, if_false] using .finish none h

theorem settleCall_shape : CallShape p i settleCall :=
  .write (f := returnOk none) (localWrite_delay _) (.finish none (mayEndWith_ok p i))

section BusOp

variable (hi : isBusOp i = true)
include hi

theorem busExec_raise_shape (x : Txn) {goOn : List Byte → State → Out} (hg : ∀ bs, CallShape p i (goOn bs)) :
    CallShape p i fun s => busExec x s fun r bs s => gate r raise s (goOn bs) :=
  .busExec x fun r bs => callShape_gate r (.finish none (mayEndWith_statusOf hi p r)) (hg bs)

theorem resetCall_shape : CallShape p i resetCall := busExec_raise_shape hi _ fun _ => .advance

theorem selectUregCall_shape : CallShape p i selectUregCall := busExec_raise_shape hi _ fun _ => .advance

theorem readUregCall_shape {use : Byte → State → Out} (hu : ∀ b, CallShape p i (use b)) :
    CallShape p i (readUregCall use) :=
  busExec_raise_shape hi _ fun bs =>
    match bs with
    | [b] => .write (localWrite_regv b) (hu b)
    | [] | _ :: _ :: _ => .refused _

theorem writeUregCall_shape (v : Byte) : CallShape p i (writeUregCall v) :=
  busExec_raise_shape hi _ fun _ => .finish none (mayEndWith_ok p i)

end BusOp

theorem srstCall_shape (k : Nat) : CallShape p .srst (srstCall k) :=
  match k with
  | 0 => resetCall_shape rfl
  | 1 => settleCall_shape
  | _ + 2 => .fault _

theorem initCall_shape (b : BusId) (dp cp : Pin) (dpu cpu : Bool) (k : Nat) :
    CallShape p (.init b dp cp dpu cpu) (initCall b dp cp dpu cpu k) :=
  match k with
  | 0 => .busConfig b dp cp dpu cpu fun ok => callShape_passOrRaise (ok = true) rfl
  | 1 => .busInstall b fun ok => callShape_passOrRaise (ok = true) rfl
  | 2 => .busExec _ fun r _ => callShape_passOrRaise (r = .ok) rfl
  | 3 => resetCall_shape rfl
  | 4 => settleCall_shape
  | _ + 5 => .fault _

theorem rdurCall_shape (k : Nat) : CallShape p .rdur (rdurCall k) :=
  match k with
  | 0 => selectUregCall_shape rfl
  | 1 => readUregCall_shape rfl fun b => .finish (some (.u8 b)) rfl
  | _ + 2 => .fault _

theorem wrurCall_shape (v : Byte) (k : Nat) : CallShape p (.wrur v) (wrurCall v k) :=
  match k with
  | 0 => writeUregCall_shape rfl v
  | _ + 1 => .fault _

theorem getresCall_shape (k : Nat) : CallShape p .getres (getresCall k) :=
  match k with
  | 0 => selectUregCall_shape rfl
  | 1 => readUregCall_shape rfl fun b => .finish (some (.u8 (resBits b))) rfl
  | _ + 2 => .fault _

theorem setresCall_shape (x : Byte) (k : Nat) : CallShape p (.setres x) (setresCall k) :=
  match k with
  | 0 => selectUregCall_shape rfl
  | 1 => readUregCall_shape rfl fun b =>
      .readReg (fun _ _ => rfl) fun r => .write (localWrite_merge (mergeRes b r)) .advance
  | 2 => .readReg (fun _ _ => rfl) (writeUregCall_shape rfl)
  | _ + 3 => .fault _

/-- How a measurement ends after the diagnostic under each policy (R164). -/
def endAfterMismatch (conv : Rounding → Raw16 → F32) (raw : Raw16) (p : CrcPolicy) (s : State) : Out :=
  match p with
  | .enforce => endMeasurement conv .checksumMismatch none s
  | .warnAndProceed => endMeasurement conv .ok (some (maskStatus raw)) s

section Measurement

variable {c : Byte} {conv : Rounding → Raw16 → F32} (hi : IsMeasurement i c conv)
include hi

/-- The one status that depends on the policy (R164, R233). -/
theorem mayEndWith_checksumMismatch : mayEndWith .enforce i .checksumMismatch = true := by
  rcases hi with ⟨rfl, -, -⟩ | ⟨rfl, -, -⟩ <;> rfl

theorem busExec_endMeasurement_shape (x : Txn) {goOn : List Byte → State → Out} (hg : ∀ bs, CallShape p i (goOn bs)) :
    CallShape p i fun s => busExec x s fun r bs s => gate r (fun st s => endMeasurement conv st none s) s (goOn bs) :=
  .busExec x fun r bs =>
    callShape_gate r (.endMeasurement conv none (mayEndWith_statusOf (isBusOp_measurement hi) p r)) (hg bs)

/-- The read: a frame that passes its check ends the measurement, another goes on to the diagnostic (R163, R164). -/
theorem readFrameCall_shape : CallShape p i (rdvalCall conv 2) := by
  unfold rdvalCall
  refine busExec_endMeasurement_shape hi (tRead 3) fun bs => ?_
  match bs with
  | [b0, b1, b2] =>
    by_cases hv : isCrcValid (assembleRaw b0 b1) b2 = true
    · simpa only [hv, if_true] using .write (localWrite_takeFrame b0 b1 b2) (.endMeasurement conv _ (mayEndWith_ok p i))
    · simpa only [hv, if_false] using .write (f := fun s => .next (advance s)) (localWrite_takeFrame b0 b1 b2) .advance
  | [] | [_] | [_, _] | _ :: _ :: _ :: _ :: _ => exact .refused _

/-- The diagnostic, after which the policy decides. -/
theorem diagnosticCall_shape : CallShape p i (rdvalCall conv 3) := by
  refine .readReg (reg := State.raw) (fun _ _ => rfl) fun raw => .readReg (reg := State.cks) (fun _ _ => rfl) fun cks => ?_
  refine .write (localWrite_record (.diag .crcMismatch raw cks)) (.policy (f := endAfterMismatch conv raw) ?_)
  cases p with
  | enforce => exact .endMeasurement conv none (mayEndWith_checksumMismatch hi)
  | warnAndProceed => exact .endMeasurement conv _ (mayEndWith_ok _ i)

theorem rdvalCall_shape (k : Nat) : CallShape p i (rdvalCall conv k) :=
  match k with
  | 0 => .readReg (fun _ _ => rfl) fun _ => busExec_endMeasurement_shape hi _ fun _ => .advance
  | 1 => .write (f := fun s => .next (advance s)) (localWrite_delay _) .advance
  | 2 => readFrameCall_shape hi
  | 3 => diagnosticCall_shape hi
  | _ + 4 => .fault _

end Measurement

theorem callOf_shape (hi : isBusOp i = true) (p : CrcPolicy) (k : Nat) : CallShape p i (callOf i k) := by
  cases i with
  | rdt => exact rdvalCall_shape (.inl ⟨rfl, rfl, rfl⟩) k
  | rdh => exact rdvalCall_shape (.inr ⟨rfl, rfl, rfl⟩) k
  | rdur => exact rdurCall_shape k
  | wrur v => exact wrurCall_shape v k
  | getres => exact getresCall_shape k
  | setres x => exact setresCall_shape x k
  | init b dp cp dpu cpu => exact initCall_shape b dp cp dpu cpu k
  | srst => exact srstCall_shape k
  | _ => cases hi

end Shapes

/-! ### The status at the end -/

/-- By induction on the shape: a call that ends its operation ends it with a status of the row. -/
theorem CallShape.status_mem_row {p : CrcPolicy} {i : Instr} {f : State → Out} (hf : CallShape p i f) {s t : State}
    {j : Instr} {k : Nat} (hp : s.ph = .run j k) (hpol : s.cfg.crcPolicy = p) (h : f s = .next t) (ht : t.ph = .idle) :
    ∃ st, t.status = some st ∧ mayEndWith p i st = true := by
  induction hf generalizing s with
  | fault r | refused r => cases h
  | advance => exact absurd ht (advance_next_ne_idle hp h)
  | finish v hst => cases h; exact ⟨_, rfl, hst⟩
  | endMeasurement conv v hst => exact ⟨_, (endMeasurement_next h).1, hst⟩
  | write hw _ ih => exact ih ((hw.ph s).trans hp) ((congrArg _ (hw.cfg s)).trans hpol) h
  | policy _ ih => exact ih hp hpol (hpol ▸ h)
  | readReg _ _ ih =>
    obtain ⟨v, -, h⟩ := readReg_next h
    exact ih v hp hpol h
  | busExec x _ ih =>
    obtain ⟨b, r, bs, u, -, ha, h⟩ := busExec_next h
    have hu := (askExec_ok ha).1
    exact ih r bs (s := record _ u) ((hu.field State.ph).trans hp) ((hu.field (·.cfg.crcPolicy)).trans hpol) h
  | busConfig b dp cp dpu cpu _ ih =>
    obtain ⟨ok, u, ha, h⟩ := busConfig_next h
    have hu := askAck_ok ha
    exact ih ok (s := record _ u) ((hu.field State.ph).trans hp) ((hu.field (·.cfg.crcPolicy)).trans hpol) h
  | busInstall b _ ih =>
    obtain ⟨ok, u, ha, h⟩ := busInstall_next h
    have hu := askAck_ok ha
    exact ih ok (s := record _ u) ((hu.field State.ph).trans hp) ((hu.field (·.cfg.crcPolicy)).trans hpol) h

/-- Settles O27: a pure operation ends with Ok, an accepted request does not end, and a call ends with a status of the row. -/
theorem statusWithinOperationsRow : Obligations.StatusWithinOperationsRow := by
  intro i s t hi h ht
  rcases exec_host_next hi h with ⟨-, -, v, q, c, rfl, -⟩ | ⟨-, -, rfl⟩ | ⟨hbus, k, hp, hk⟩
  · exact ⟨.ok, rfl, mayEndWith_ok _ i⟩
  · cases ht
  · exact (callOf_shape hbus s.cfg.crcPolicy k).status_mem_row hp rfl hk ht

/-! ### What the host has pending -/

section Pending

variable {i : Instr} {s t : State} (q : List HostRequest)

@[simp] theorem withPending_link (s : State) : (withPending q s).link = s.link := rfl
@[simp] theorem withPending_answers (s : State) : (withPending q s).answers = s.answers := rfl

theorem advance_withPending (s : State) : advance (withPending q s) = withPending q (advance s) := by
  cases hp : s.ph <;> simp [advance, withPending, hp]

theorem legacyView_withPending (conv : Rounding → Raw16 → F32) (st : Status) (v : Option Raw16) (s : State) :
    legacyView conv st v (withPending q s) = withPending q (legacyView conv st v s) := by
  unfold legacyView
  by_cases h : s.cfg.legacyView = true <;> simp [h, withPending]

theorem endMeasurement_withPending (conv : Rounding → Raw16 → F32) (st : Status) (v : Option Raw16) (s : State) :
    endMeasurement conv st v (withPending q s) = mapNext (withPending q) (endMeasurement conv st v s) :=
  congrArg Host.Outcome.next (legacyView_withPending q conv st v (finish st (v.map .u16) s))

/-- The transport does not look at the pending requests. -/
theorem askExec_withPending (x : Txn) (s : State) :
    askExec x (withPending q s) = (askExec x s).map fun a => (a.1, a.2.1, withPending q a.2.2) := by
  unfold askExec
  simp only [withPending_link, withPending_answers]
  split
  · split
    · rfl
    · split
      · split <;> rfl
      · rfl
    · rfl
  · rfl

theorem askAck_withPending (g : Dev → Bool × Dev) (s : State) :
    askAck g (withPending q s) = (askAck g s).map fun a => (a.1, withPending q a.2) := by
  unfold askAck
  simp only [withPending_link, withPending_answers]
  split
  · split <;> rfl
  · rfl

/-- By induction on the shape: a call does the same with other requests pending, and leaves them pending. -/
theorem CallShape.next_withPending {p : CrcPolicy} {f : State → Out} (hf : CallShape p i f)
    (hpol : s.cfg.crcPolicy = p) (h : f s = .next t) : f (withPending q s) = .next (withPending q t) := by
  induction hf generalizing s with
  | fault r | refused r => cases h
  | advance => cases h; exact congrArg Host.Outcome.next (advance_withPending q s)
  | finish v _ => cases h; rfl
  | endMeasurement conv v _ => rw [endMeasurement_withPending, h, mapNext]
  | write hw _ ih =>
    dsimp only
    rw [hw.pending]
    exact ih ((congrArg _ (hw.cfg s)).trans hpol) h
  | policy _ ih =>
    subst hpol
    exact ih rfl h
  | readReg hreg _ ih =>
    obtain ⟨v, hv, h⟩ := readReg_next h
    exact (readReg_eq ((hreg q s).trans hv) _).trans (ih v hpol h)
  | busExec x _ ih =>
    obtain ⟨b, r, bs, u, hb, ha, h⟩ := busExec_next h
    have ha' : askExec x (withPending q s) = .ok (r, bs, withPending q u) := by
      rw [askExec_withPending, ha]
      rfl
    exact (busExec_answered (s := withPending q s) hb ha' _).trans
      (ih r bs (s := record _ u) (((askExec_ok ha).1.field (·.cfg.crcPolicy)).trans hpol) h)
  | busConfig b dp cp dpu cpu _ ih =>
    obtain ⟨ok, u, ha, h⟩ := busConfig_next h
    have ha' : askAck (fun d => (true, d)) (withPending q s) = .ok (ok, withPending q u) := by
      rw [askAck_withPending, ha]
      rfl
    exact (busConfig_answered ha' _).trans (ih ok (s := record _ u) (((askAck_ok ha).field (·.cfg.crcPolicy)).trans hpol) h)
  | busInstall b _ ih =>
    obtain ⟨ok, u, ha, h⟩ := busInstall_next h
    have ha' : askAck devInstall (withPending q s) = .ok (ok, withPending q u) := by
      rw [askAck_withPending, ha]
      rfl
    exact (busInstall_answered ha' _).trans (ih ok (s := record _ u) (((askAck_ok ha).field (·.cfg.crcPolicy)).trans hpol) h)

theorem deviceTakes_withPending (effect : Dev → Dev) (s : State) :
    deviceTakes effect (withPending q s) = mapNext (withPending q) (deviceTakes effect s) := by
  rw [deviceTakes_eq, deviceTakes_eq]
  rfl

theorem exec_wire_withPending (hi : i.isHost = false) (s : State) :
    exec i (withPending q s) = mapNext (withPending q) (exec i s) := by
  cases i with
  | wTrigTNh | wTrigHNh | wWrUreg | wRdUreg | wSrst => exact deviceTakes_withPending q _ s
  | wTrigTH | wTrigHH => rfl
  | _ => cases hi

theorem exec_running_withPending {j : Instr} {k : Nat} (hp : s.ph = .run j k) (h : exec i s = .next t) :
    exec i (withPending q s) = .next (withPending q t) := by
  cases hi : i.isHost with
  | false => rw [exec_wire_withPending q hi, h, mapNext]
  | true =>
    rcases exec_host_next hi h with ⟨hidle, -⟩ | ⟨hidle, -⟩ | ⟨hbus, k, hp, hk⟩
    · cases hp.symm.trans hidle
    · cases hp.symm.trans hidle
    · rw [exec_running (s := withPending q s) hbus hp]
      exact (callOf_shape hbus _ k).next_withPending q rfl hk

end Pending

/-- Settles O19: the step takes the same frame or makes the same call, and neither looks at what is pending. -/
theorem pendingRequestDoesNotDisturb : Obligations.PendingRequestDoesNotDisturb := by
  intro s t i k q hp h
  change step (withPending q s) = .next (withPending q t)
  obtain ⟨hforeign, hrunning, -, -⟩ := stepRunsDecodedInstruction
  cases hw : s.wire with
  | nil =>
    rw [hrunning s i k hw hp] at h
    exact (hrunning (withPending q s) i k hw hp).trans (exec_running_withPending q hp h)
  | cons bs rest =>
    cases hd : decode (.wire bs) with
    | error e => simp [step, fetch_foreign_frame hw, fetchFrame, hd] at h
    | ok j =>
      rw [hforeign s bs rest j hw hd] at h
      exact (hforeign (withPending q s) bs rest j hw hd).trans (exec_running_withPending q (s := { s with wire := rest }) hp h)

end Sys2Proof.Machine
end

section
/-! Block reset (R6, R270), the device's own reset with its reboot window (R76, R271), and the hazard of the unwritten handle
(R23, R280). -/

namespace Sys2Proof.Machine

/-! ### Block reset -/

theorem reset_dead : DatapathDead State.reset := ⟨rfl, rfl, rfl, rfl, rfl, rfl, rfl, rfl, rfl, rfl⟩

/-- Settles O56: the rows of the reset table, and the defaults of the configuration. -/
theorem resetStateOfTheBlock : Obligations.ResetStateOfTheBlock :=
  ⟨rfl, rfl, rfl, rfl, rfl, rfl, reset_dead, rfl, rfl, rfl⟩

/-- Settles O57: an idle state asks for a dead datapath alone, and the other parts speak of what is not there at reset. -/
theorem resetMeetsInvariant : Obligations.ResetMeetsInvariant := by
  have hresponse : ResponseLegal State.reset := fun hval => absurd rfl hval
  have hlegacy : LegacyLegal State.reset := fun _ => ⟨rfl, rfl⟩
  have htrace : ∀ e ∈ State.reset.trace, EventLegal e := List.forall_mem_nil _
  exact ⟨phaseLegal_of_idle rfl, (registersLive_of_idle rfl).mpr reset_dead, hresponse, hlegacy, htrace⟩

/-! ### The device's reset -/

/-- The heater mask selects the old bit or the default's (R271). -/
theorem getLsbD_devSoftReset_ur (p : DevParams) (d : Dev) (j : Fin 8) :
    (devSoftReset p d).ur.getLsbD j.val =
      if p.heaterMask.getLsbD j.val then d.ur.getLsbD j.val else p.urDefault.getLsbD j.val := by
  rw [devSoftReset, BitVec.getLsbD_or, BitVec.getLsbD_and, BitVec.getLsbD_and, BitVec.getLsbD_not]
  cases p.heaterMask.getLsbD j.val <;> simp

/-- The reboot window is over once 15 ms have gone by (R76). -/
theorem devDelay_rebooting_eq_false_iff (ms : Nat) (d : Dev) :
    (devDelay ms d).rebooting = false ↔ d.rebooting = false ∨ 15 ≤ d.elapsedMs + ms := by
  rw [devDelay, Bool.and_eq_false_iff, decide_eq_false_iff_not, not_lt, Config.tSrstMs]

/-- Settles O51: the user register bit by bit, and the window a Delay leaves. -/
theorem softResetKeepsOnlyHeaterBit : Obligations.SoftResetKeepsOnlyHeaterBit := fun p d j ms =>
  ⟨getLsbD_devSoftReset_ur p d j, rfl, rfl, devDelay_rebooting_eq_false_iff ms d⟩

/-! ### The unwritten handle -/

/-- The outcome is that of a `BusExec` of `x` from `s`, whatever is done with the answer. -/
def Transacts (x : Txn) (s : State) (o : Out) : Prop := ∃ f, o = busExec x s f

theorem Transacts.unwritten {x : Txn} {s : State} {o : Out} (ho : Transacts x s o) (hb : s.bh = none) :
    o = .fault .unwrittenHandle := by
  obtain ⟨f, rfl⟩ := ho
  exact busExec_unwritten hb f

theorem selectUregCall_transacts (s : State) : Transacts (tWrite [0xE7]) s (selectUregCall s) := ⟨_, rfl⟩

theorem readUregCall_transacts (use : Byte → State → Out) (s : State) : Transacts (tRead 1) s (readUregCall use s) :=
  ⟨_, rfl⟩

theorem writeUregCall_transacts (v : Byte) (s : State) : Transacts (tWrite [0xE6, v]) s (writeUregCall v s) := ⟨_, rfl⟩

theorem resetCall_transacts (s : State) : Transacts (tWrite [0xFE]) s (resetCall s) := ⟨_, rfl⟩

theorem triggerCall_transacts {c : Byte} {s : State} (hcmd : s.cmd = some c) (conv : Rounding → Raw16 → F32) :
    Transacts (tCmd c) s (rdvalCall conv 0 s) := by
  rw [rdvalCall, readReg_eq hcmd]
  exact ⟨_, rfl⟩

theorem readFrameCall_transacts (conv : Rounding → Raw16 → F32) (s : State) :
    Transacts (tRead 3) s (rdvalCall conv 2 s) := by
  unfold rdvalCall
  exact ⟨_, rfl⟩

/-- Each row of the call lists with a transaction is a `BusExec` of it; a measurement triggers with the command byte it holds,
and SETRES writes the merge it holds. -/
theorem callOf_transacts {i : Instr} {k : Nat} {s : State} {x : Txn} (hlive : RegistersLive s) (hp : s.ph = .run i k)
    (hx : callTxn i k s = some x) : Transacts x s (callOf i k s) := by
  unfold callTxn at hx
  split at hx
  -- the measurements
  case h_1 | h_3 =>
    cases hx
    simp only [RegistersLive, hp] at hlive
    obtain ⟨hcmd, -⟩ := hlive
    exact triggerCall_transacts hcmd _
  case h_2 | h_4 => cases hx; exact readFrameCall_transacts _ s
  -- the user register
  case h_5 | h_8 | h_10 => cases hx; exact selectUregCall_transacts s
  case h_6 | h_9 => cases hx; exact readUregCall_transacts _ s
  case h_11 => cases hx; unfold callOf setresCall; exact readUregCall_transacts _ s
  case h_7 => cases hx; exact writeUregCall_transacts _ s
  case h_12 =>
    obtain ⟨m, hm, rfl⟩ := Option.map_eq_some_iff.mp hx
    rw [callOf, setresCall, readReg_eq hm]
    exact writeUregCall_transacts m s
  -- the lifecycle
  case h_13 => cases hx; unfold callOf initCall; exact ⟨_, rfl⟩
  case h_14 | h_15 => cases hx; exact resetCall_transacts s
  case h_16 => cases hx

/-- Settles O23: the transaction is the first thing the running operation's call does. -/
theorem unwrittenHandleFault : Obligations.UnwrittenHandleFault := fun i k s _ hlive hp hx hb =>
  calc exec i s = callOf i k s := exec_running (isBusOp_of_callTxn hx) hp
    _ = .fault .unwrittenHandle := (callOf_transacts hlive hp hx).unwritten hb

end Sys2Proof.Machine
end
